-- ==== Sys2Proof/Word.lean ====
section
/-! DEFINITION. The words the engine counts with: frame numbers and oscillator phases are 32-bit words that wrap
(R159, R40), characters of the serial line are bytes (R167), samples and coefficients are integers held in their
ranges by the operations that form them (R27, R28). -/
namespace Sys2Proof

/-- A value of the 32-bit frame counter (R159). -/
abbrev FrameNo := BitVec 32

/-- One character of a control port's line (R167). -/
abbrev Byte := BitVec 8

end Sys2Proof
end

