-- ==== Sys2Proof/Syntax.lean ====
section
/-! DEFINITION. The commands of the engine, one constructor of `Instr` per row of spec/opcode_table.json, with the
named fields their rules give them, and the replies the engine forms. Request bodies are named fields (00,
Conventions); a field that names one of a fixed set of things is a `Field`, so that an absent or an unknown name
can be said. -/
namespace Sys2Proof

/-! ## Names -/

/-- The three control ports (R167). -/
inductive Port | a | b | c
  deriving DecidableEq, Repr

/-- The RATE strap (00). -/
inductive Rate | k48 | k96
  deriving DecidableEq, Repr

/-- The SPLIT strap (00, R119). -/
inductive Split | even | twoDesk
  deriving DecidableEq, Repr

/-- The three straps read at engine start (R173). -/
structure Straps where
  rate : Rate
  split : Split
  engine : Fin 4
  deriving DecidableEq, Repr

/-- The five effect kinds (R1). -/
inductive Kind | reverb | delay | pingpong | multitap | chorus
  deriving DecidableEq, Repr

/-- The variants of REVERB and the modes of CHORUS (R1). -/
inductive Variant | room | hall | plate | chorus | flange
  deriving DecidableEq, Repr

/-- The states of an instance record other than FREE (R1). -/
inductive InstState | priming | running | held | waiting | draining | fading
  deriving DecidableEq, Repr

/-- The two modes of a release (R12). -/
inductive RelMode | tail | cut
  deriving DecidableEq, Repr

/-- The apply conditions of SET (R73). -/
inductive Cond | now | beat | bar | lfoZero
  deriving DecidableEq, Repr

/-- The two outputs of an instance (R164). -/
inductive Side | left | right
  deriving DecidableEq, Repr

/-- The two page lists of a line (R2). -/
inductive PageList | primary | mirror
  deriving DecidableEq, Repr

/-- The modes of CLAIM_OUTPUT (R162). -/
inductive ClaimMode | claim | read
  deriving DecidableEq, Repr

/-- The two modes of notice service (R180 to R182). -/
inductive NoticeMode | polled | vectored
  deriving DecidableEq, Repr

/-- The eight notice classes, in priority order (R178). -/
inductive NoticeClass | fault | memory | clock | transition | inst | tempo | handover | system
  deriving DecidableEq, Repr

/-- The twelve error names, in code order (R184). -/
inductive ErrorName
  | bankFailed | nvFault | uncorrectable | corrected | retired | sparesExhausted
  | migrateQueueFull | clockLost | laneLost | poisonOutput | frameCheck | queueFull
  deriving DecidableEq, Repr

/-- The outcome of one group read (R113). -/
inductive GroupOutcome | clean | corrected | uncorrectable
  deriving DecidableEq, Repr

/-- How a period of the word clock is judged (R158). -/
inductive Period | good | bad | missing
  deriving DecidableEq, Repr

/-- A field that names one of a fixed set: not given, given but unknown, or given. -/
inductive Field (α : Type) where
  | absent
  | unknown
  | is (v : α)
  deriving DecidableEq, Repr

/-- Three like things, one per port. -/
structure PerPort (α : Type) where
  a : α
  b : α
  c : α
  deriving DecidableEq, Repr

/-! ## Operands -/

/-- What a request says of itself before its body: the port it came in on and its tag (R168). -/
structure Hdr where
  port : Port
  tag : Byte
  deriving DecidableEq, Repr

/-- The slot field of CREATE (R6). -/
inductive SlotArg
  | any
  | named (slot : Nat)
  deriving DecidableEq, Repr

/-- The creation choices and the drain limit as a request carries them (R6, R47): the span in milliseconds, the
drain limit in tenths of a second. -/
structure CreateForm where
  kind : Field Kind
  variant : Field Variant
  span : Option Nat
  taps : Option Nat
  voices : Option Nat
  mirror : Field Bool
  drain : Option Nat
  deriving DecidableEq, Repr

/-- A parameter value as a request carries it (R73): a free value in the parameter's form, a gain record, a synced
division's code, or a form the engine does not know. -/
inductive ValueForm
  | free (x : Int)
  | gain (m e : Int)
  | division (code : Nat)
  | unknown
  deriving DecidableEq, Repr

/-- The body of SET beside its slot (R73): the ramp in milliseconds. -/
structure SetForm where
  param : Nat
  value : ValueForm
  ramp : Nat
  cond : Field Cond
  deriving DecidableEq, Repr

/-- A send or a route of a recall CREATE item: a channel and a set gain (R143). -/
structure PathForm where
  chan : Nat
  gain : Int
  deriving DecidableEq, Repr

/-- The items of a recall (R143). -/
inductive RecallItem
  | setParams (slot : Nat) (pairs : List (Nat × ValueForm)) (ramp : Option Nat)
  | create (slot : Nat) (form : CreateForm) (link : Option Nat) (params : List (Nat × ValueForm))
      (sends left right : List PathForm)
  | replace (old new : Nat) (form : CreateForm) (params : List (Nat × ValueForm)) (policy : Field RelMode)
  | release (slot : Nat) (mode : Field RelMode)
  | unknown
  deriving DecidableEq, Repr

/-- What one port's receiver saw in one frame (R167): whether a valid character arrived, and whether an invalid
one did. -/
structure RxFrame where
  valid : Bool
  invalid : Bool
  deriving DecidableEq, Repr

/-- A check group that does not read CLEAN in a frame (R113). -/
structure GroupFault where
  page : Nat
  group : Nat
  outcome : GroupOutcome
  deriving DecidableEq, Repr

/-- What the outside world gives in one frame: the samples on the input lanes by channel number (a channel not
listed carries 0), whether each lane's frame is good (R157), the lengths in picoseconds of the word-clock periods that
end in the frame (R158), the receivers' characters (R167) and the groups that do not read CLEAN (R113). -/
structure FrameIn where
  channels : List Int
  laneGood : Vector Bool 4
  periods : List Nat
  rx : PerPort RxFrame
  faults : List GroupFault
  deriving DecidableEq, Repr

/-- The contents of the nonvolatile retirement list (R173): the pages named and whether the stored check holds. -/
structure NvImage where
  pages : List Nat
  checkGood : Bool
  deriving DecidableEq, Repr

/-- Which ramp of an instance RAMP_END names (R76, R160, R164). -/
inductive RampRef
  | param (n : Nat)
  | send (pos : Nat)
  | route (side : Side) (pos : Nat)
  deriving DecidableEq, Repr

/-! ## Details of notices and error records -/

/-- Why an instance was freed (R17). -/
inductive FreeReason | quiet | limit | cut
  deriving DecidableEq, Repr

/-- What changed a clock (R104). -/
inductive TempoCause | tempo | tap | meter | claimed | released
  deriving DecidableEq, Repr

/-- Who changed a clock: a port or the TAP line (R104). -/
inductive TempoSource
  | port (p : Port)
  | tapLine
  deriving DecidableEq, Repr

/-- The result of one recall item (R146). -/
inductive ItemResult | ok | clamped | failedNoPages | failedNoUnits | cancelled
  deriving DecidableEq, Repr

/-- The states of a transition record (R146). -/
inductive RecordState | armed | settling | settled | failed | superseded
  deriving DecidableEq, Repr

/-- How many items of a record have each result (R152). -/
structure ItemCounts where
  ok : Nat
  clamped : Nat
  failedNoPages : Nat
  failedNoUnits : Nat
  cancelled : Nat
  deriving DecidableEq, Repr

/-- Where a line's page stands: slot, line position, list position, and list (R106, R137). -/
structure Holder where
  slot : Nat
  line : Nat
  pos : Nat
  list : PageList
  deriving DecidableEq, Repr

/-- The detail of a notice or the fields of an error record, as the raising rules give them (R178, R184). That
`poisonOutput`, `accepted`, `declined`, `expired` and `cancelled` carry the slot is log entries 62 and 63; that
`corrected` carries the slot and the page is log entry 66, what an `uncorrectable` record of a copy carries log entry 70,
that `retired` says primary or mirror list log entry 71. -/
inductive Detail
  | bankFailed (bank : Nat)
  | nvFault
  | uncorrectable (slot : Option Nat) (page : Nat) (rescued : Bool)
  | corrected (slot : Option Nat) (page : Nat)
  | retired (page : Nat) (place : Option (Holder × Nat))
  | sparesExhausted (page : Nat)
  | migrateQueueFull (slot page : Nat)
  | clockLost
  | locked
  | laneLost (lane : Nat)
  | laneSynced (lane : Nat)
  | transition (number : Nat) (state : RecordState) (counts : ItemCounts)
  | primed (slot : Nat)
  | freed (slot : Nat) (why : FreeReason)
  | poisonOutput (slot : Nat)
  | tempo (clock : Nat) (cause : TempoCause) (source : TempoSource) (tempo beats : Nat)
  | offered (slot : Nat) (giver : Port)
  | accepted (slot : Nat)
  | declined (slot : Nat)
  | expired (slot : Nat)
  | cancelled (slot : Nat)
  | voteOpened (port : Port)
  | voteDropped
  | linkUp (port : Port)
  | linkDown (port : Port)
  | restarted
  | frameCheck
  | queueFull
  deriving DecidableEq, Repr

/-- A latest-detail record: the detail and the frame of the raising (R178). -/
structure Noted where
  detail : Detail
  frame : FrameNo
  deriving DecidableEq, Repr

/-- An error record of a port's view (R184). -/
structure ErrorRec where
  name : ErrorName
  detail : Detail
  frame : FrameNo
  deriving DecidableEq, Repr

/-! ## Replies -/

/-- The status of a reply (R170). -/
inductive Status | done | clamped | pending | nothing | refused
  deriving DecidableEq, Repr

/-- The reasons of a REFUSED reply (R170). -/
inductive Reason
  | notOwner | badState | badArgument | noSlot | noPages | noUnits
  | claimed | notClaimed | locked | pendingFull | stagingFull | queueFull
  deriving DecidableEq, Repr

/-- The fields a CLAMPED reply can name (R170). -/
inductive ClampName
  | span | tapCapacity | voiceCapacity | drainLimit | value | coefficient | shift | ramp | condition | tempo | beats
  | defaultRamp
  deriving DecidableEq, Repr

/-- The fields of the IDENTIFY reply (R172). -/
structure IdentifyReport where
  straps : Straps
  port : Port
  allocatable : Nat
  spares : Nat
  retired : Nat
  unitBudget : Nat
  pageReserves : PerPort Nat
  pageCommon : Nat
  unitReserves : PerPort Nat
  unitCommon : Nat
  deriving DecidableEq, Repr

/-- One port's accounting in the BUDGET reply (R123). -/
structure PortBudget where
  pages : Nat
  units : Nat
  pageExcess : Nat
  unitExcess : Nat
  deriving DecidableEq, Repr

/-- One bank's pages in the BUDGET reply (R123). -/
structure BankBudget where
  failed : Bool
  free : Nat
  cleanFree : Nat
  spare : Nat
  retired : Nat
  withdrawn : Nat
  deriving DecidableEq, Repr

/-- The BUDGET reply (R123). -/
structure BudgetReport where
  split : Split
  rate : Rate
  unitBudget : Nat
  pageReserves : PerPort Nat
  pageCommon : Nat
  unitReserves : PerPort Nat
  unitCommon : Nat
  ports : PerPort PortBudget
  pageExcess : Nat
  unitExcess : Nat
  pageCommonLeft : Nat
  unitCommonLeft : Nat
  unitsLeft : Nat
  banks : List BankBudget
  freePages : Nat
  spares : Nat
  retired : Nat
  withdrawn : Nat
  waiting : Nat
  pageHeadroom : Nat
  unitHeadroom : Nat
  deriving DecidableEq, Repr

/-- The STATUS reply for a slot that is not FREE (R26). Fields that the state or the kind does not give are none. -/
structure StatusReport where
  state : InstState
  owner : Port
  shared : Bool
  kind : Kind
  variant : Option Variant
  span : Option Nat
  taps : Option Nat
  voices : Option Nat
  mirror : Bool
  lines : Option (List (Nat × Nat))
  link : Option Nat
  drainLimit : Nat
  drainStart : Option FrameNo
  quiet : Option Nat
  tag : Option Nat
  offer : Option (Port × Nat)
  saturation : Nat
  poison : Nat
  pages : Nat
  units : Nat
  deriving DecidableEq, Repr

/-- One entry of a MAP reply (R124). -/
structure MapEntry where
  pos : Nat
  page : Nat
  bank : Nat
  bankFailed : Bool
  migrating : Bool
  deriving DecidableEq, Repr

/-- The clock report (R92). -/
structure ClockReport where
  clock : Nat
  owner : Option Port
  tempo : Nat
  fpb : Nat
  beats : Nat
  beat : Nat
  intervals : List Nat
  sinceTap : Option Nat
  tapLine : Bool
  linked : PerPort Nat
  deriving DecidableEq, Repr

/-- What became of a tap (R98, R100). -/
inductive TapOutcome | ignored | restarted | appended
  deriving DecidableEq, Repr

/-- The states of an output channel (R162). -/
inductive ClaimState | free | claimed | releasing
  deriving DecidableEq, Repr

/-- The word-clock states (R158). -/
inductive WordClock | unlocked | locked | holdover
  deriving DecidableEq, Repr

/-- The channel report of CLAIM_OUTPUT (R162). -/
structure ChannelReport where
  state : ClaimState
  owner : Option Port
  clips : Nat
  live : Nat
  departing : Nat
  wordClock : WordClock
  clockGate : Nat
  lanes : List (Bool × Nat)
  deriving DecidableEq, Repr

/-- One item in the RECALL_RESULT reply (R155): the item, its result, or the frames left while its slot is
WAITING. -/
structure ItemReport where
  item : RecallItem
  result : Option ItemResult
  waiting : Option Nat
  deriving DecidableEq, Repr

/-- The RECALL_RESULT reply (R155). -/
structure RecallReport where
  number : Nat
  state : RecordState
  cond : Cond
  clock : Option Nat
  ramp : Nat
  applyFrame : Option FrameNo
  items : List ItemReport
  shortPages : Nat
  shortUnits : Nat
  coverPages : Nat
  coverUnits : Nat
  forced : List Nat
  deriving DecidableEq, Repr

/-- The value of a SET as accepted (R74); a division is given with the delay it gave, where it gave one. -/
inductive SetValue
  | free (x : Int)
  | gain (m e : Int)
  | division (code : Nat) (delay : Option Nat)
  deriving DecidableEq, Repr

/-- One class given by NOTICE_TAKE (R180, R181). -/
structure NoticeGiven where
  cls : NoticeClass
  noted : Option Noted
  count : Nat
  deriving DecidableEq, Repr

/-- The fields a reply carries after its status and reason, as the owning rule gives them. -/
inductive ReplyBody
  | empty
  | clamped (names : List ClampName)
  | identify (r : IdentifyReport)
  | budget (r : BudgetReport)
  | statusFree
  | status (r : StatusReport)
  | map (capacity pages writePos : Nat) (entries : List MapEntry)
  | created (slot pages units : Nat) (names : List ClampName)
  | set (value : SetValue) (ramp : Option Nat) (names : List ClampName)
  | channel (r : ChannelReport)
  | clock (r : ClockReport) (names : List ClampName)
  | tapped (what : TapOutcome) (r : ClockReport)
  | itemIndex (n : Nat)
  | failedItem (n : Nat)
  | committed (number : Nat) (state : RecordState) (applyFrame : Option FrameNo)
      (results : List (Option ItemResult)) (superseded : Option Nat)
  | recall (r : RecallReport)
  | masks (classes : List NoticeClass) (errors : List ErrorName)
  | notices (given : List NoticeGiven)
  | vector (vec : Nat) (given : NoticeGiven) (depth : Nat)
  | popped (cls : Option NoticeClass) (depth : Nat)
  | errorView (first : Option ErrorRec) (next : List Nat)
  | cleared (freed fading channels clocks : Nat)
  deriving DecidableEq, Repr

/-- A reply: the tag and code of its request, its status, its reason when REFUSED, and the fields that follow
(R168, R170). -/
structure Reply where
  tag : Byte
  code : Byte
  status : Status
  reason : Option Reason
  body : ReplyBody
  deriving DecidableEq, Repr

/-! ## Commands -/

/-- The commands: the rows of spec/opcode_table.json, in the table's order. -/
inductive Instr
  | identify (h : Hdr)
  | budget (h : Hdr)
  | status (h : Hdr) (slot : Nat)
  | map (h : Hdr) (slot line : Nat) (list : Field PageList) (start : Nat)
  | create (h : Hdr) (slot : SlotArg) (form : CreateForm)
  | release (h : Hdr) (slot : Nat) (mode : Field RelMode) (drain : Option Nat)
  | hold (h : Hdr) (slot : Nat)
  | unhold (h : Hdr) (slot : Nat)
  | share (h : Hdr) (slot : Nat) (on : Field Bool)
  | give (h : Hdr) (slot : Nat) (target : Field Port)
  | accept (h : Hdr) (slot : Nat)
  | decline (h : Hdr) (slot : Nat)
  | set (h : Hdr) (slot : Nat) (form : SetForm)
  | sendSet (h : Hdr) (slot pos chan : Nat) (gain : Int) (ramp : Nat)
  | sendClear (h : Hdr) (slot pos : Nat)
  | claimOutput (h : Hdr) (chan : Nat) (mode : Field ClaimMode)
  | releaseOutput (h : Hdr) (chan : Nat)
  | routeSet (h : Hdr) (slot : Nat) (out : Field Side) (pos chan : Nat) (gain : Int) (ramp : Nat)
  | routeClear (h : Hdr) (slot : Nat) (out : Field Side) (pos : Nat)
  | tempoClaim (h : Hdr) (clock : Nat)
  | tempoRelease (h : Hdr) (clock : Nat)
  | tempoSet (h : Hdr) (clock : Nat) (tempo : Option Nat)
  | tap (h : Hdr) (clock : Nat)
  | meter (h : Hdr) (clock beats : Nat)
  | tapLine (h : Hdr) (clock : Nat)
  | linkTempo (h : Hdr) (slot : Nat) (clock : Option Nat)
  | recallBegin (h : Hdr) (number : Nat) (cond : Field Cond) (clock : Option Nat) (ramp : Nat)
  | recallItem (h : Hdr) (item : RecallItem)
  | recallCommit (h : Hdr)
  | recallAbandon (h : Hdr)
  | recallResult (h : Hdr)
  | noticeMode (h : Hdr) (mode : Field NoticeMode) (base : Nat)
  | noticeMask (h : Hdr) (classes : List (Field NoticeClass)) (errors : List (Field ErrorName))
  | noticeTake (h : Hdr)
  | endService (h : Hdr)
  | errorRead (h : Hdr)
  | errorClear (h : Hdr)
  | portClear (h : Hdr)
  | restart (h : Hdr)
  | engineRestart
  | engineStart (straps : Straps) (nv : Option NvImage)
  | resetAsserted
  | frameReceived (port : Port) (chars : List Byte)
  | linkUp (port : Port)
  | linkDown (port : Port)
  | tapLineEdge
  | chainInChange (port : Port) (asserted : Bool)
  | frame (f : FrameIn)
  | instancePrimed (slot : Nat)
  | drainQuiet (slot : Nat)
  | drainLimit (slot : Nat)
  | fadeComplete (slot : Nat)
  | offerExpired (slot : Nat)
  | rampEnd (slot : Nat) (which : RampRef)
  | returnRampEnd (slot : Nat)
  | dipSwitch (slot : Nat)
  | dipEnd (slot : Nat)
  | crossfadeEnd (slot param : Nat)
  | poisonFallEnd (slot : Nat)
  | poisonRiseEnd (slot : Nat)
  | lfoWrap (slot : Nat)
  | beatEvent (clock : Nat)
  | lastTapLapse (clock : Nat)
  | waitLimit (slot : Nat)
  | scrubVisit (faults : List GroupFault)
  | failureEntryExpiry (page group : Nat)
  | copyStart
  | copyComplete
  | nvAppendStart
  | nvAppendComplete
  | voteDropped
  | sendDeparted (slot pos : Nat)
  | routeDeparted (slot : Nat) (side : Side) (pos : Nat)
  | laneLost (lane : Nat)
  | laneSynced (lane : Nat)
  | clockLost
  | locked
  deriving DecidableEq, Repr

end Sys2Proof
end

