-- ==== Sys2Proof/Decode.lean ====
section
/-! DEFINITION. The command a word spells by the bits of spec/opcode_table.json. The table gives bits to no row: a
command reaches the engine as a request's named fields, as a level or an edge on a line, or as an event of the engine's
own, never as a word. So no word spells a command. -/
namespace Sys2Proof

/-- The command whose bits are `w`, of `nbits` bits: none, since no row of the table has bits. -/
def decodeTableWord (_nbits _w : Nat) : Option Instr := none

end Sys2Proof
end

