-- ==== Sys2Proof/Config.lean ====
section
/-! DEFINITION. What an implementation fixes and the spec does not: constants without a body, so that no proof
can see their value. -/
namespace Sys2Proof

/-- The bytes of a reply's fields after its status and reason, for a reply whose byte form the spec does not give (00,
Conventions). The length of a body is at most 250 bytes (R168), the two of status and reason included;
`Machine.replyFields` keeps that limit. Log entry 13. -/
opaque Config.replyFields : Reply → List Byte

/-- The silicon revision less one (R172: "the revision number of the part, from 1"). Log entry 28. -/
opaque Config.revisionLessOne : Nat

/-- Whether a body's bytes fit the form of the request with that code, for the requests that carry fields, whose
byte form the spec does not give (R168). Log entry 12. -/
opaque Config.bodyFits : Byte → List Byte → Bool

end Sys2Proof
end

