-- ==== Sys2Proof/Machine/State.lean ====
section
/-! DEFINITION. The state of the engine as plain data, block by block (00, "Blocks"), the ways a step can stop, and the
state right after engine start. -/
namespace Sys2Proof.Machine

/-- Reasons to stop with a fault. There are none: what the spec calls a fault is part of the engine's own state (an
error view, a notice, the FAULT line), so no command stops the machine. -/
inductive Fault
  deriving DecidableEq, Repr

/-- Reasons to refuse a command. -/
inductive Refusal
  /-- Raised by `exec` for a command that has no meaning in the model yet. Safe: the model stops where the engine goes
  on. No command of this model raises it. -/
  | notModelled (mnemonic : String)
  deriving DecidableEq, Repr

/-! ## CONTROL PORTS (chapter 10) -/

/-- A request waiting in a port's inbound queue (R169), as its frame carried it. -/
structure QueuedReq where
  tag : Byte
  code : Byte
  body : List Byte
  deriving DecidableEq, Repr

/-- A reply being sent and how much of it has gone, in eighths of a character (R169). -/
structure Sending where
  reply : Reply
  sent : Nat
  deriving DecidableEq, Repr

/-- One control port (R167, R169). -/
structure PortIo where
  /-- the link is UP -/
  up : Bool
  /-- frames of unbroken valid characters counted toward UP -/
  run : Nat
  /-- frames with no valid character counted toward DOWN -/
  silence : Nat
  /-- characters of a message frame being received -/
  rx : List Byte
  /-- the inbound queue -/
  queue : List QueuedReq
  /-- QUEUE_FULL replies held, by tag and code -/
  held : List (Byte × Byte)
  sending : Option Sending
  /-- a reply formed that waits behind a QUEUE_FULL reply -/
  answer : Option Reply
  /-- a carried restart waits for this port's reply (R176) -/
  awaited : Bool
  deriving DecidableEq, Repr

/-- The restart vote (R175), and whether it has carried (R176). -/
structure Vote where
  voters : PerPort Bool
  left : Nat
  carried : Bool
  deriving DecidableEq, Repr

/-! ## Ramps and parameters (chapter 4) -/

/-- A parameter's value: the integer it is carried as, with the shift of a gain record and 0 otherwise (R28, R71). -/
structure Val where
  m : Int
  e : Int
  deriving DecidableEq, Repr

/-- A parameter ramp: start value S, length N, position k (R71, R76). Position N + 1 is a ramp whose N-th frame has
run and whose RAMP_END is still to be taken. -/
structure Ramp where
  start : Val
  len : Nat
  pos : Nat
  deriving DecidableEq, Repr

/-- A crossfade of a time parameter (R86), in 1/256 sample. Position N + 1 waits for CROSSFADE_END. -/
structure Xfade where
  old : Int
  new : Int
  len : Nat
  pos : Nat
  deriving DecidableEq, Repr

/-- A change waiting behind a crossfade (R87): its target in 1/256 sample, its ramp in frames, and whether a tempo
retarget is its source. -/
structure Waiting where
  target : Int
  ramp : Nat
  retarget : Bool
  deriving DecidableEq, Repr

/-- A parameter record (R71). `prev` is the value in effect in the frame before, from which a change starts (R77,
R86). -/
structure Param where
  num : Nat
  prev : Val
  value : Val
  target : Val
  ramp : Option Ramp
  discrete : Bool
  division : Option Nat
  xfade : Option Xfade
  waiting : Option Waiting
  deriving DecidableEq, Repr

/-- A value after acceptance (R74): a gain record, a free value in the units it is carried in, or a division code. -/
inductive Accepted
  | gain (v : Val)
  | free (x : Int)
  | division (code : Nat)
  deriving DecidableEq, Repr

/-- An entry of the pending update list (R71): the ramp in milliseconds. -/
structure Update where
  param : Nat
  value : Accepted
  ramp : Nat
  cond : Cond
  deriving DecidableEq, Repr

/-- The phases of a dip (R82). -/
inductive DipPhase | none | fall | rise
  deriving DecidableEq, Repr

/-- The dip record (R71): the sets hold at most one value per parameter number. Position Nd + 1 waits for DIP_SWITCH
or DIP_END. -/
structure Dip where
  phase : DipPhase
  pos : Nat
  switch : List (Nat × Int)
  next : List (Nat × Int)
  deriving DecidableEq, Repr

/-! ## Sends and routes (chapter 9) -/

/-- A ramp of a send's or a route's gain in effect (R160, R164). -/
structure GainRamp where
  start : Int
  target : Int
  len : Nat
  pos : Nat
  deriving DecidableEq, Repr

/-- A live or departing send or route (R160, R164); an empty position is none. -/
structure Path where
  chan : Nat
  setGain : Int
  gain : Int
  ramp : Option GainRamp
  departing : Bool
  deriving DecidableEq, Repr

/-- A send or route a recall gives an instance it creates: position, channel and set gain (R149). -/
structure KeptPath where
  pos : Nat
  chan : Nat
  gain : Int
  deriving DecidableEq, Repr

/-- What the TRANSITION UNIT keeps for a WAITING instance (R9, R149): the item's index, its parameters, link, sends and
routes, whether anything was clamped, the reason of the latest refusal (pages, else units), and the default ramp of
the sends in frames. -/
structure Kept where
  item : Nat
  params : List (Nat × ValueForm)
  link : Option Nat
  sends : List KeptPath
  left : List KeptPath
  right : List KeptPath
  clamped : Bool
  noPages : Bool
  ramp : Nat
  deriving DecidableEq, Repr

/-! ## Instances (chapters 1 to 3) -/

/-- The creation choices (R47): the span in samples; a choice the kind does not take is 0 or none. -/
structure Choice where
  kind : Kind
  variant : Option Variant
  span : Nat
  taps : Nat
  voices : Nat
  mirror : Bool
  deriving DecidableEq, Repr

/-- A line record (R2) with the line's damping state (R34). -/
structure Line where
  capacity : Nat
  pages : List Nat
  mirrors : List Nat
  writePos : Nat
  damp : Int
  deriving DecidableEq, Repr

/-- A handover offer (R19). -/
structure Offer where
  target : Port
  left : Nat
  deriving DecidableEq, Repr

/-- An oscillator (R40, R41): its phase, the phase it had in the frame before, a wrap of its free phase that has not been
acted on, whether a tap or a METER has moved its clock's position backward in the present frame, and whether the wrap of
its formed phase in the present frame has been acted on. -/
structure Osc where
  phase : BitVec 32
  last : BitVec 32
  wrapped : Bool
  moved : Bool
  acted : Bool
  deriving DecidableEq, Repr

/-- The decay gains of a REVERB with the DECAY and SIZE they were computed from (R39). -/
structure Decay where
  decay : Int
  size : Int
  gains : List Int
  deriving DecidableEq, Repr

/-- The phases of the poison envelope (R46). -/
inductive EnvPhase | clear | fall | silent | rise
  deriving DecidableEq, Repr

/-- The poison envelope (R46). -/
structure Envelope where
  phase : EnvPhase
  step : Nat
  heldL : Int
  heldR : Int
  deriving DecidableEq, Repr

/-- One instance record with what every block keeps for it (R1, R2, R3, and the blocks table of 00). -/
structure Inst where
  state : InstState
  owner : Port
  shared : Bool
  choice : Choice
  lines : List Line
  link : Option Nat
  drainLimit : Nat
  drainStart : FrameNo
  tag : Option Nat
  offer : Option Offer
  saturation : Nat
  poison : Nat
  /-- pages and units charged (ALLOCATOR, R119) -/
  pages : Nat
  units : Nat
  /-- the frame in which it entered WAITING or PRIMING, the later of the two -/
  entered : FrameNo
  /-- the last dirty page has been cleared at a frame's end (R8) -/
  primed : Bool
  /-- length in frames of the send ramps at the first RUNNING frame (R8, R149) -/
  primeRamp : Nat
  kept : Option Kept
  /-- the quiet run (R14) -/
  quiet : Nat
  /-- the position in the fade, 0 when not FADING (R16) -/
  fade : Nat
  /-- the fade followed the drain limit (R16) -/
  byLimit : Bool
  /-- the position in the return from HELD, 0 when none runs (R36) -/
  ret : Nat
  oscs : List Osc
  decay : Decay
  env : Envelope
  /-- the instance outputs of the previous frame (R44) -/
  outL : Int
  outR : Int
  /-- the previous frame was poisoned (R45) -/
  poisoned : Bool
  params : List Param
  updates : List Update
  dip : Dip
  sends : Vector (Option Path) 4
  left : Vector (Option Path) 2
  right : Vector (Option Path) 2
  deriving DecidableEq, Repr

/-! ## Delay memory and the ALLOCATOR (chapter 6) -/

/-- The state of a page (R106). -/
inductive PageState
  | free (clean : Bool)
  | spare (clean : Bool)
  | allocated (h : Holder)
  | target (source : Nat)
  | retired
  | withdrawn
  deriving DecidableEq, Repr

/-- An entry of a bank's failure list (R117). -/
structure Failure where
  page : Nat
  group : Nat
  frame : FrameNo
  deriving DecidableEq, Repr

/-- A bank (R108). -/
structure Bank where
  failed : Bool
  failures : List Failure
  deriving DecidableEq, Repr

/-- The DELAY MEMORY CONTROLLER. `table` and `samples` are lists in rising order of page and address that leave out
every entry equal to what an unlisted one reads as. -/
structure DelayMem where
  table : List (Nat × PageState)
  samples : List (Nat × Int)
  /-- the spare pool, in list order (R109) -/
  spares : List Nat
  banks : Vector Bank 4
  /-- the priming queue: page and slot (R116) -/
  priming : List (Nat × Nat)
  /-- how many more pages the clearing at the end of the last frame could have taken (the model's own) -/
  clearLeft : Nat
  deriving DecidableEq, Repr

/-- What one port is charged (R119). -/
structure Charge where
  pages : Nat
  units : Nat
  deriving DecidableEq, Repr

/-- The ALLOCATOR: charges per port (R119) and the waiting list of slots (R122). -/
structure Alloc where
  charged : PerPort Charge
  waiting : List Nat
  deriving DecidableEq, Repr

/-! ## INTEGRITY UNIT (chapter 7) -/

/-- A watch table entry (R125). -/
structure Watch where
  page : Nat
  count : Nat
  first : FrameNo
  mark : Bool
  deriving DecidableEq, Repr

/-- A migration queue entry: the page, and the frame in which it was queued (R134, R135). -/
structure Queued where
  page : Nat
  since : FrameNo
  deriving DecidableEq, Repr

/-- The copy in progress (R125): position 17 waits for COPY_COMPLETE. -/
structure Copy where
  source : Nat
  target : Nat
  holder : Holder
  pos : Nat
  deriving DecidableEq, Repr

/-- A nonvolatile append in progress: the frames left, and how many entries are recorded when it completes (R140). -/
structure Append where
  left : Nat
  upto : Nat
  deriving DecidableEq, Repr

/-- The INTEGRITY UNIT (R125). The fields from `counted` on are the model's own: what has been done in the present
frame already. -/
structure Integrity where
  watch : List Watch
  queue : List Queued
  copy : Option Copy
  /-- pages whose retirement is owed (R141) -/
  owed : List Nat
  /-- pages whose exhaustion has been reported (R141) -/
  reported : List Nat
  /-- the retirement list (R140) -/
  retired : List Nat
  /-- how many of its entries are recorded -/
  recorded : Nat
  append : Option Append
  nv : NvImage
  /-- pages counted in the watch table in this frame (R130) -/
  counted : List Nat
  /-- pages that requested retirement in this frame (R134, R141) -/
  requested : List Nat
  /-- the scrubber's visit of this frame has been taken (R126) -/
  visited : Bool
  /-- a copy start has been tried in this frame (R135) -/
  copyTried : Bool
  /-- the page whose watch pass the frame still owes (R131) -/
  passDue : Option Nat
  /-- the next entry to record was appended at the end of the last frame, with no append running (R137, R140) -/
  late : Bool
  deriving DecidableEq, Repr

/-! ## TEMPO UNIT (chapter 5) -/

/-- A tempo clock record (R90). The last four fields are the model's own: whether the present frame carries a beat and a
bar event of the clock, and whether its delivery is still to be made (R96, R97). -/
structure Clock where
  owner : Option Port
  tempo : Nat
  fpb : Nat
  phase : Nat
  beat : Nat
  beats : Nat
  series : List Nat
  lastTap : Option FrameNo
  tapLine : Bool
  linked : PerPort Nat
  beatNow : Bool
  barNow : Bool
  beatOwed : Bool
  barOwed : Bool
  deriving DecidableEq, Repr

/-! ## TRANSITION UNIT (chapter 8) -/

/-- An open staging area (R142). -/
structure Staging where
  number : Nat
  cond : Cond
  clock : Option Nat
  ramp : Nat
  items : List RecallItem
  deriving DecidableEq, Repr

/-- An item of a record with its result, none while undecided (R146). -/
structure RecordItem where
  item : RecallItem
  result : Option ItemResult
  deriving DecidableEq, Repr

/-- A transition record (R146). -/
structure Record where
  number : Nat
  state : RecordState
  cond : Cond
  clock : Option Nat
  ramp : Nat
  applyFrame : Option FrameNo
  items : List RecordItem
  shortPages : Nat
  shortUnits : Nat
  coverPages : Nat
  coverUnits : Nat
  forced : List Nat
  deriving DecidableEq, Repr

/-- One port's staging area and record. -/
structure Recall where
  staging : Option Staging
  record : Option Record
  deriving DecidableEq, Repr

/-! ## LANE INTERFACE (chapter 9) -/

/-- An input lane (R157), with the channel values of its last good frame. -/
structure Lane where
  synced : Bool
  badRun : Nat
  goodRun : Nat
  gate : Nat
  last : List Int
  deriving DecidableEq, Repr

/-- An entry of the output claim table (R162). -/
structure Claim where
  state : ClaimState
  owner : Option Port
  clips : Nat
  deriving DecidableEq, Repr

/-- The LANE INTERFACE. The claim table has 64 entries; at 96 kHz only the first 32 are channels (R156). `outNow` holds
the channel samples that leave in the present frame, `outNext` those of the frame after (R156). -/
structure Lanes where
  inputs : Vector Lane 4
  wordClock : WordClock
  good : Nat
  bad : Nat
  gate : Nat
  claims : Vector Claim 64
  outNow : List Int
  outNext : List Int
  deriving DecidableEq, Repr

/-! ## NOTICE UNIT (chapter 11) -/

/-- One notice class at one port (R178). -/
structure Notice where
  pending : Bool
  detail : Option Noted
  count : Nat
  deriving DecidableEq, Repr

/-- The notice state and the error view of one port (R178 to R184). -/
structure NoticePort where
  classes : Vector Notice 8
  classMask : List NoticeClass
  errorMask : List ErrorName
  mode : NoticeMode
  base : Nat
  /-- the in-service stack, top first (R181) -/
  stack : List NoticeClass
  /-- the level at CHAIN IN (R183) -/
  chainIn : Bool
  first : Option ErrorRec
  next : Vector Nat 12
  deriving DecidableEq, Repr

/-! ## The engine -/

/-- The whole engine. -/
structure State where
  /-- commands still to be taken, first in, first out -/
  pending : List Instr
  /-- RESET is released and frames run (R173) -/
  running : Bool
  straps : Straps
  /-- the frame counter (R159): the value of the present frame -/
  frame : FrameNo
  /-- a step that belongs to the end of the last frame is acting (the model's own) -/
  ending : Bool
  nvFault : Bool
  ports : PerPort PortIo
  vote : Option Vote
  insts : Vector (Option Inst) 32
  mem : DelayMem
  alloc : Alloc
  integ : Integrity
  clocks : Vector Clock 4
  recalls : PerPort Recall
  lanes : Lanes
  notices : PerPort NoticePort
  deriving DecidableEq, Repr

/-! ## The state after engine start -/

/-- A port with its link DOWN and nothing in it (R167, R169). -/
def PortIo.reset : PortIo :=
  { up := false, run := 0, silence := 0, rx := [], queue := [], held := [], sending := none, answer := none,
    awaited := false }

/-- A clock at engine start (R91) but for its FPB and TAP line. -/
def Clock.reset (fpb : Nat) (tapLine : Bool) : Clock :=
  { owner := none, tempo := 12000, fpb := fpb, phase := 0, beat := 1, beats := 4, series := [], lastTap := none,
    tapLine := tapLine, linked := ⟨0, 0, 0⟩, beatNow := false, barNow := false, beatOwed := false, barOwed := false }

/-- Notice state and error view at their defaults (R186), with the level at CHAIN IN. -/
def NoticePort.reset (chainIn : Bool) : NoticePort :=
  { classes := Vector.replicate 8 { pending := false, detail := none, count := 0 }, classMask := [], errorMask := [],
    mode := .polled, base := 0, stack := [], chainIn := chainIn, first := none, next := Vector.replicate 12 0 }

/-- An input lane at engine start (R157). -/
def Lane.reset : Lane := { synced := false, badRun := 0, goodRun := 0, gate := 0, last := [] }

/-- The LANE INTERFACE at engine start (R156, R157, R158, R162). -/
def Lanes.reset : Lanes :=
  { inputs := Vector.replicate 4 Lane.reset, wordClock := .unlocked, good := 0, bad := 0, gate := 0,
    claims := Vector.replicate 64 { state := .free, owner := none, clips := 0 }, outNow := [], outNext := [] }

/-- The INTEGRITY UNIT at engine start with an empty retirement list (R125). -/
def Integrity.reset : Integrity :=
  { watch := [], queue := [], copy := none, owed := [], reported := [], retired := [], recorded := 0, append := none,
    nv := { pages := [], checkGood := true }, counted := [], requested := [], visited := false, copyTried := false,
    passDue := none, late := false }

/-- The delay memory at engine start with an empty retirement list (R108, R109): the highest 16 pages of each bank are
SPARE, every other page FREE, none clean; no sample has been written. -/
def DelayMem.reset : DelayMem :=
  { table := (List.range 64).map fun k => (k / 16 * 2048 + 2032 + k % 16, .spare false), samples := [],
    spares := (List.range 64).map fun k => (3 - k % 4) * 2048 + 2047 - k / 4,
    banks := Vector.replicate 4 { failed := false, failures := [] }, priming := [], clearLeft := 0 }

/-- The machine right after engine start (R173): straps 48 kHz, EVEN and 0 (log entry 1), a readable and empty
nonvolatile list (log entry 3), CHAIN IN asserted (log entry 4). -/
def State.reset : State :=
  { pending := [], running := true, straps := { rate := .k48, split := .even, engine := 0 }, frame := 0,
    ending := false, nvFault := false, ports := ⟨PortIo.reset, PortIo.reset, PortIo.reset⟩, vote := none,
    insts := Vector.replicate 32 none, mem := DelayMem.reset,
    alloc := { charged := ⟨⟨0, 0⟩, ⟨0, 0⟩, ⟨0, 0⟩⟩, waiting := [] }, integ := Integrity.reset,
    clocks := #v[Clock.reset 6144000 true, Clock.reset 6144000 false, Clock.reset 6144000 false,
      Clock.reset 6144000 false],
    recalls := ⟨⟨none, none⟩, ⟨none, none⟩, ⟨none, none⟩⟩, lanes := Lanes.reset,
    notices := ⟨NoticePort.reset true, NoticePort.reset true, NoticePort.reset true⟩ }

end Sys2Proof.Machine
end

