-- ==== Sys2Proof/Machine/Ops.lean ====
section
/-! DEFINITION. The named operations over the state that every block shares: access by port, slot and clock, lists kept
in rising order, raising notices and recording errors (R178, R184), taking a request and forming its reply (R169,
R170), and acting at the end of a frame. -/
namespace Sys2Proof

/-! ## Ports, rates and small helpers -/

/-- The three ports in order. -/
def allPorts : List Port := [.a, .b, .c]

/-- The entry of one port. -/
def PerPort.get {α : Type} (x : PerPort α) : Port → α
  | .a => x.a
  | .b => x.b
  | .c => x.c

/-- The entry of one port replaced. -/
def PerPort.set {α : Type} (x : PerPort α) (p : Port) (v : α) : PerPort α :=
  match p with
  | .a => { x with a := v }
  | .b => { x with b := v }
  | .c => { x with c := v }

/-- The same function on every port's entry. -/
def PerPort.map {α β : Type} (f : α → β) (x : PerPort α) : PerPort β := ⟨f x.a, f x.b, f x.c⟩

/-- The sum of a count over the ports. -/
def PerPort.sum (x : PerPort Nat) : Nat := x.a + x.b + x.c

/-- The first value at 48 kHz and the second at 96 kHz, as the manual writes its pairs (00, Conventions). -/
def Rate.pick {α : Type} (r : Rate) (x48 x96 : α) : α :=
  match r with
  | .k48 => x48
  | .k96 => x96

/-- Frames in one second. -/
def Rate.hz (r : Rate) : Nat := r.pick 48000 96000

/-- Frames in so many milliseconds (R74). -/
def Rate.ms (r : Rate) (n : Nat) : Nat := n * r.pick 48 96

/-- `x` held to the range `lo` to `hi`. -/
def clampInt (lo hi x : Int) : Int := if x < lo then lo else if hi < x then hi else x

/-- `x` held to the range `lo` to `hi`. -/
def clampNat (lo hi x : Nat) : Nat := if x < lo then lo else if hi < x then hi else x

/-- The quotient rounded to nearest with halves up. -/
def roundDiv (n d : Nat) : Nat := (2 * n + d) / (2 * d)

/-- A class's number, its priority (R178). -/
def NoticeClass.idx : NoticeClass → Fin 8
  | .fault => 0
  | .memory => 1
  | .clock => 2
  | .transition => 3
  | .inst => 4
  | .tempo => 5
  | .handover => 6
  | .system => 7

/-- The eight classes in priority order. -/
def allClasses : List NoticeClass := [.fault, .memory, .clock, .transition, .inst, .tempo, .handover, .system]

/-- An error's place among the twelve counts, its code less one (R184). -/
def ErrorName.idx : ErrorName → Fin 12
  | .bankFailed => 0
  | .nvFault => 1
  | .uncorrectable => 2
  | .corrected => 3
  | .retired => 4
  | .sparesExhausted => 5
  | .migrateQueueFull => 6
  | .clockLost => 7
  | .laneLost => 8
  | .poisonOutput => 9
  | .frameCheck => 10
  | .queueFull => 11

/-- The class an error raises (R184). -/
def ErrorName.cls : ErrorName → Option NoticeClass
  | .bankFailed | .nvFault => some .fault
  | .uncorrectable | .retired | .sparesExhausted | .migrateQueueFull => some .memory
  | .corrected => none
  | .clockLost | .laneLost => some .clock
  | .poisonOutput => some .inst
  | .frameCheck | .queueFull => some .system

namespace Machine

/-! ## Lists of (address, entry) in rising order -/

/-- The entry at `k` of a list in rising order. -/
def Sparse.find {α : Type} : List (Nat × α) → Nat → Option α
  | [], _ => none
  | (j, v) :: t, k => if j = k then some v else if k < j then none else Sparse.find t k

/-- The list with the entry at `k` set to `v`. -/
def Sparse.insert {α : Type} : List (Nat × α) → Nat → α → List (Nat × α)
  | [], k, v => [(k, v)]
  | (j, w) :: t, k, v =>
    if j = k then (k, v) :: t else if k < j then (k, v) :: (j, w) :: t else (j, w) :: Sparse.insert t k v

/-- The list without an entry at `k`. -/
def Sparse.erase {α : Type} : List (Nat × α) → Nat → List (Nat × α)
  | [], _ => []
  | (j, w) :: t, k => if j = k then t else if k < j then (j, w) :: t else (j, w) :: Sparse.erase t k

/-- The list with `v` at `k`, where an unlisted address reads as `d`: an entry equal to `d` is not listed. -/
def Sparse.put {α : Type} [DecidableEq α] (d : α) (l : List (Nat × α)) (k : Nat) (v : α) : List (Nat × α) :=
  if v = d then Sparse.erase l k else Sparse.insert l k v

/-- The addresses rise strictly, and all lie above `lo` where one is given. -/
def Sparse.rising {α : Type} : Option Nat → List (Nat × α) → Bool
  | _, [] => true
  | none, (j, _) :: t => Sparse.rising (some j) t
  | some lo, (j, _) :: t => decide (lo < j) && Sparse.rising (some j) t

/-! ## Access to the state -/

namespace State

/-- The control port `p`. -/
def io (s : State) (p : Port) : PortIo := s.ports.get p

/-- The control port `p` replaced. -/
def setIo (s : State) (p : Port) (x : PortIo) : State := { s with ports := s.ports.set p x }

/-- The notice state of port `p`. -/
def np (s : State) (p : Port) : NoticePort := s.notices.get p

/-- The notice state of port `p` replaced. -/
def setNp (s : State) (p : Port) (x : NoticePort) : State := { s with notices := s.notices.set p x }

/-- The recall state of port `p`. -/
def rc (s : State) (p : Port) : Recall := s.recalls.get p

/-- The recall state of port `p` replaced. -/
def setRc (s : State) (p : Port) (x : Recall) : State := { s with recalls := s.recalls.set p x }

/-- The transition record of port `p` changed. -/
def modRecord (s : State) (p : Port) (f : Record → Record) : State :=
  s.setRc p { s.rc p with record := (s.rc p).record.map f }

/-- The instance in a slot; none for a FREE slot and beyond the table (R1). -/
def inst (s : State) (slot : Nat) : Option Inst := (s.insts[slot]?).join

/-- The slot holds the record. -/
def setInst (s : State) (slot : Nat) (i : Inst) : State := { s with insts := s.insts.setIfInBounds slot (some i) }

/-- The slot is FREE. -/
def clearSlot (s : State) (slot : Nat) : State := { s with insts := s.insts.setIfInBounds slot none }

/-- The record in the slot, if any, changed. -/
def modInst (s : State) (slot : Nat) (f : Inst → Inst) : State :=
  match s.inst slot with
  | some i => s.setInst slot (f i)
  | none => s

/-- The clock `n`, if there is one. -/
def clock (s : State) (n : Nat) : Option Clock := s.clocks[n]?

/-- The clock `n` replaced. -/
def setClock (s : State) (n : Nat) (c : Clock) : State := { s with clocks := s.clocks.setIfInBounds n c }

/-- The clock `n` changed. -/
def modClock (s : State) (n : Nat) (f : Clock → Clock) : State :=
  match s.clock n with
  | some c => s.setClock n (f c)
  | none => s

/-- Whether the link of `p` is UP. -/
def linkUp (s : State) (p : Port) : Bool := (s.io p).up

/-- The rate strap in force. -/
def rate (s : State) : Rate := s.straps.rate

/-- Frames passed since the frame of a stamp, modulo 2^32 (R159). -/
def since (s : State) (stamp : FrameNo) : Nat := (s.frame - stamp).toNat

end State

/-- The 32 slots in order. -/
def allSlots : List Nat := List.range 32

/-! ## Notices and errors (R178, R184) -/

/-- A class raised at a port: pending, with its latest detail and one event more, up to 255 (R178). -/
def NoticePort.raise (n : NoticePort) (c : NoticeClass) (d : Noted) : NoticePort :=
  { n with
    classes := n.classes.set c.idx
      { pending := true, detail := some d, count := min 255 ((n.classes.get c.idx).count + 1) } }

/-- An error recorded in a view: in FIRST if it is empty, else counted in NEXT up to 255 (R184). -/
def NoticePort.record (n : NoticePort) (r : ErrorRec) : NoticePort :=
  match n.first with
  | none => { n with first := some r }
  | some _ => { n with next := n.next.set r.name.idx (min 255 (n.next.get r.name.idx + 1)) }

/-- An error at a port: recorded, and its class raised unless the error is masked there (R178, R179, R184). -/
def NoticePort.report (n : NoticePort) (e : ErrorName) (d : Noted) : NoticePort :=
  let n := n.record { name := e, detail := d.detail, frame := d.frame }
  match e.cls with
  | none => n
  | some c => if e ∈ n.errorMask then n else n.raise c d

namespace State

/-- A class raised at port `p` in the present frame. -/
def raise (s : State) (p : Port) (c : NoticeClass) (d : Detail) : State :=
  s.setNp p ((s.np p).raise c { detail := d, frame := s.frame })

/-- A class raised at port `p` if its link is UP. -/
def raiseUp (s : State) (p : Port) (c : NoticeClass) (d : Detail) : State :=
  if s.linkUp p then s.raise p c d else s

/-- A class raised at every port. -/
def raiseAll (s : State) (c : NoticeClass) (d : Detail) : State := allPorts.foldl (fun s p => s.raise p c d) s

/-- A class raised at every port whose link is UP but `p`. -/
def raiseOthers (s : State) (p : Port) (c : NoticeClass) (d : Detail) : State :=
  allPorts.foldl (fun s q => if q = p then s else s.raiseUp q c d) s

/-- An error at port `p` in the present frame. -/
def report (s : State) (p : Port) (e : ErrorName) (d : Detail) : State :=
  s.setNp p ((s.np p).report e { detail := d, frame := s.frame })

/-- An error at every port. -/
def reportAll (s : State) (e : ErrorName) (d : Detail) : State := allPorts.foldl (fun s p => s.report p e d) s

/-- An error at the owner where there is one, at every port otherwise (R129, R184). -/
def reportOwner (s : State) (owner : Option Port) (e : ErrorName) (d : Detail) : State :=
  match owner with
  | some p => s.report p e d
  | none => s.reportAll e d

/-! ## The end of a frame -/

/-- `f` acting at the end of the last frame: its stamps are that frame's (log entry 15). -/
def atFrameEnd (f : State → State) (s : State) : State :=
  let t := f { s with frame := s.frame - 1, ending := true }
  { t with frame := s.frame, ending := s.ending }

/-- `f` while the engine runs; nothing happens while RESET is asserted (R173). -/
def whileRunning (s : State) (f : State → State) : State := if s.running then f s else s

end State

/-! ## Replies and requests (R169, R170) -/

/-- What a request answers: the status, the reason when REFUSED, and the fields that follow (R170). -/
structure Ans where
  status : Status
  reason : Option Reason
  body : ReplyBody
  deriving DecidableEq, Repr

/-- DONE with its fields. -/
def ansDone (b : ReplyBody) : Ans := { status := .done, reason := none, body := b }

/-- DONE, or CLAMPED where a field was clamped (R170). -/
def ansClamped (names : List ClampName) (b : ReplyBody) : Ans :=
  { status := if names = [] then .done else .clamped, reason := none, body := b }

/-- REFUSED with its reason (R170). -/
def ansRefused (r : Reason) : Ans := { status := .refused, reason := some r, body := .empty }

/-- REFUSED with its reason and the fields its rule gives. -/
def ansRefusedWith (r : Reason) (b : ReplyBody) : Ans := { status := .refused, reason := some r, body := b }

/-- Whether a reply is a QUEUE_FULL reply (R169). -/
def isQueueFull (r : Reply) : Bool := decide (r.reason = some .queueFull)

/-- The QUEUE_FULL reply to a request of which only tag and code are known (R169, R168). -/
def queueFullReply (x : Byte × Byte) : Reply :=
  { tag := x.1, code := x.2 + 0x80, status := .refused, reason := some .queueFull, body := .empty }

/-- The next reply put on the transmit line when it is idle: a held QUEUE_FULL reply, else the reply that waits
(R169). -/
def PortIo.sendNext (x : PortIo) : PortIo :=
  match x.sending, x.held, x.answer with
  | some _, _, _ => x
  | none, q :: rest, _ => { x with held := rest, sending := some { reply := queueFullReply q, sent := 0 } }
  | none, [], some r => { x with sending := some { reply := r, sent := 0 }, answer := none }
  | none, [], none => x

/-- The codes of the catalogue (R171). -/
def catalogue : List Nat :=
  [0x01, 0x02, 0x03, 0x04, 0x10, 0x11, 0x12, 0x13, 0x14, 0x15, 0x16, 0x17, 0x20, 0x21, 0x22, 0x23, 0x24, 0x25, 0x26,
   0x30, 0x31, 0x32, 0x33, 0x34, 0x35, 0x36, 0x40, 0x41, 0x42, 0x43, 0x44, 0x50, 0x51, 0x52, 0x53, 0x54, 0x55, 0x60, 0x61]

/-- The codes of requests that carry no fields: IDENTIFY, BUDGET, RECALL_COMMIT, RECALL_ABANDON, RECALL_RESULT,
NOTICE_TAKE, END_SERVICE, ERROR_READ, ERROR_CLEAR, PORT_CLEAR and RESTART. -/
def fieldless : List Nat := [0x01, 0x02, 0x42, 0x43, 0x44, 0x52, 0x53, 0x54, 0x55, 0x60, 0x61]

/-- Whether a queued request cannot be taken as any request of the catalogue: its code is unknown, or its body does not
fit, as an empty one where there are fields, and any other where there are none (R168, log entry 12). -/
def malformed (q : QueuedReq) : Bool :=
  if q.code.toNat ∉ catalogue then true
  else if q.code.toNat ∈ fieldless then decide (q.body ≠ [])
  else decide (q.body = []) || !Config.bodyFits q.code q.body

/-- Whether a port has no request taken whose reply is still to be sent; a QUEUE_FULL reply on the line answers no request
that was taken (R169). -/
def PortIo.free (x : PortIo) : Bool :=
  x.answer.isNone && (match x.sending with | some y => isQueueFull y.reply | none => true)

/-- Whether a request with that tag and code is the next of a port: it stands at the head of the queue, its body fitting its
form, or the queue is empty and it is taken as it arrives (R169, log entry 12). -/
def PortIo.headIs (x : PortIo) (tag code : Byte) : Bool :=
  match x.queue with
  | [] => true
  | q :: _ => decide (q.tag = tag) && decide (q.code = code) && !malformed q

namespace State

/-- Whether port `p` can take its next request: the engine runs, the link is UP, no vote has carried, and no reply of a
request taken before is still to be sent (R167, R169, R173, R176). -/
def portReady (s : State) (p : Port) : Bool :=
  s.running && s.linkUp p && !(match s.vote with | some v => v.carried | none => false) && (s.io p).free

/-- Whether the request of `h` with that code is taken now: its port can take one, and it is the next (R169). -/
def takes (s : State) (h : Hdr) (code : Byte) : Bool := s.portReady h.port && (s.io h.port).headIs h.tag code

/-- The request leaves the queue of its port (R169). -/
def dequeue (s : State) (p : Port) : State := s.setIo p { s.io p with queue := (s.io p).queue.drop 1 }

/-- The reply handed to the transmit line of the request's port (R168, R169). -/
def answer (s : State) (h : Hdr) (code : Byte) (a : Ans) : State :=
  let r : Reply := { tag := h.tag, code := code + 0x80, status := a.status, reason := a.reason, body := a.body }
  s.setIo h.port ({ s.io h.port with answer := some r }).sendNext

/-- The next request of a port acting on the state, and its reply formed (R169). -/
def takeNext (s : State) (code : Byte) (h : Hdr) (act : State → State × Ans) : State :=
  let r := act (s.dequeue h.port)
  r.1.answer h code r.2

/-- A request taken. One that its port does not take now changes nothing (log entry 11). -/
def request (s : State) (code : Byte) (h : Hdr) (act : State → State × Ans) : State :=
  if s.takes h code then s.takeNext code h act else s

/-! ## Checks of requests that name an instance (R5) -/

/-- A refused request: nothing changed (R5, R170). -/
def refuse (s : State) (r : Reason) : State × Ans := (s, ansRefused r)

/-- The checks 1 to 4 of R5 for a request whose right is the owner's: arguments, FREE slot, owner, state; then the
request itself. -/
def asOwner (s : State) (p : Port) (slot : Nat) (argsOk : Bool) (states : List InstState)
    (act : Inst → State × Ans) : State × Ans :=
  if 31 < slot ∨ argsOk = false then s.refuse .badArgument else
    match s.inst slot with
    | none => s.refuse .badState
    | some i =>
      if i.owner ≠ p then s.refuse .notOwner
      else if i.state ∉ states then s.refuse .badState
      else act i

end State

end Machine
end Sys2Proof
end

