-- ==== Sys2Proof/Machine/Arith.lean ====
section
/-! DEFINITION. Signal arithmetic (chapter 2): the take, interpolation, damping, gains, oscillators and the derived
coefficients, all on integers. Division rounds toward minus infinity (`/` with a positive divisor) or toward zero
(`Int.tdiv`), as each rule says. -/
namespace Sys2Proof.Machine

/-! ## Samples and takes (R27 to R31) -/

/-- The clamp to the sample range (R27). -/
def clampSample (x : Int) : Int := clampInt (-8388608) 8388607 x

/-- Steps 1 and 2 of a take: the accumulator `A` divided at the shift `e`, halves up (R30). -/
def takeQuotient (e A : Int) : Int := (A + 2 ^ (14 - e).toNat) / 2 ^ (15 - e).toNat

/-- The take of the accumulator `A` with the shift `e` (R30). -/
def take (e A : Int) : Int := clampSample (takeQuotient e A)

/-- The clamps a take makes: one where step 3 changes the quotient (R31). -/
def takeClamps (e A : Int) : Nat := if take e A = takeQuotient e A then 0 else 1

/-- A count that stops at 65,535 (R3, R31, R165). -/
def countUp (n k : Nat) : Nat := min 65535 (n + k)

/-! ## Interpolation and damping (R33, R34) -/

/-- The value between `a` and `b` at the fraction `f` of 256 (R33). -/
def interpolate (a b : Int) (f : Nat) : Int := a + ((b - a) * f + 128) / 256

/-- The new damping state from the old state `s`, the read `y` and the coefficient `k` (R34); `k` is 32,768 under
bypass. -/
def dampStep (s y k : Int) : Int := s + ((y - s) * k + 16384) / 32768

/-- The points of the DAMP table (R52): tenths of a kilohertz, `k` at 48 kHz and at 96 kHz. -/
def dampTable : List (Int × Int × Int) :=
  [(10, 4020, 2076), (20, 7548, 4020), (40, 13357, 7548), (80, 21269, 13357), (120, 25956, 17828), (160, 28733, 21269),
   (199, 30346, 23860)]

/-- `k` on the straight line between the two table points around `x` (R52). -/
def dampBetween (r : Rate) (x : Int) : List (Int × Int × Int) → Int
  | (d0, a0, b0) :: (d1, a1, b1) :: t =>
    if x ≤ d1 then
      let k0 := r.pick a0 b0
      let k1 := r.pick a1 b1
      k0 + Int.tdiv ((k1 - k0) * (x - d0)) (d1 - d0)
    else dampBetween r x ((d1, a1, b1) :: t)
  | [(_, a0, b0)] => r.pick a0 b0
  | [] => 32768

/-- The damping coefficient that DAMP gives, 32,768 for the bypass at 200 (R34, R52). -/
def dampCoefficient (r : Rate) (damp : Int) : Int := if 200 ≤ damp then 32768 else dampBetween r damp dampTable

/-! ## Feedback (R35, R36) -/

/-- The clamp of a feedback coefficient in effect (R35). -/
def clampFeedback (c : Int) : Int := clampInt (-32440) 32440 c

/-- The value in the `j`-th frame of `n` on the way from `start` to `stop`, truncating toward zero (R36, R76). -/
def along (start stop : Int) (j n : Nat) : Int := start + Int.tdiv ((stop - start) * j) n

/-- The feedback coefficient in effect on a line that feeds back (R35, R36): 32,767 while HELD; in a return from HELD
the ramp from 32,767 to the source `p`, clamped; the clamped source otherwise. -/
def feedbackInEffect (r : Rate) (held : Bool) (ret : Nat) (p : Int) : Int :=
  if held then 32767
  else if ret = 0 then clampFeedback p
  else clampFeedback (along 32767 p (min ret (r.pick 480 960)) (r.pick 480 960))

/-- The damping coefficient in effect (R34, R36): bypass while HELD, the ramp from bypass in a return, the coefficient of
DAMP otherwise. -/
def dampInEffect (r : Rate) (held : Bool) (ret : Nat) (damp : Int) : Int :=
  let k := dampCoefficient r damp
  if held then 32768
  else if ret = 0 then k
  else along 32768 k (min ret (r.pick 480 960)) (r.pick 480 960)

/-- CROSS limited so that its magnitude and that of the feedback coefficient add up to no more than 32,440 (R61). -/
def limitCross (cross fb : Int) : Int :=
  let room := 32440 - fb.natAbs
  if (cross.natAbs : Int) ≤ room then cross
  else if room ≤ 0 then 0
  else if cross < 0 then -room else room

/-- The cross coefficient in effect of a PINGPONG (R61, R63). -/
def crossInEffect (r : Rate) (held : Bool) (ret : Nat) (cross fb : Int) : Int :=
  if held then 0
  else if ret = 0 then limitCross cross fb
  else limitCross (along 0 cross (min ret (r.pick 480 960)) (r.pick 480 960)) fb

/-! ## Decay gains (R39)

32,768 times ten to the power of minus 3 L / (DECAY times the frame rate) is worked out in fixed point with 64 bits
after the point: as a power of two, whose fractional part is taken by the series of the exponential. Over every length
and every DECAY a REVERB can have, the exact value lies further from a half than the error of this working (log entry
17). -/

/-- 2 to the 64. -/
def fixOne : Nat := 18446744073709551616

/-- The binary logarithm of ten, times 2 to the 64. -/
def log2Ten : Nat := 61278757397652712441

/-- The natural logarithm of two, times 2 to the 64. -/
def ln2 : Nat := 12786308645202655659

/-- The exponential of minus `z`, `z` from 0 to ln 2, both times 2 to the 64. -/
def expNeg (z : Nat) : Nat :=
  (List.range 24).foldr (fun k acc => fixOne - z * acc / fixOne / (k + 1)) fixOne

/-- The decay gain of a network line of length `len` with DECAY in tenths of a second (R39). -/
def decayGain (r : Rate) (len decay : Nat) : Int :=
  let y := 30 * len * log2Ten / (decay * r.hz)
  let n := y / fixOne
  let v := expNeg (y % fixOne * ln2 / fixOne)
  min 32440 ((roundDiv (32768 * v) (2 ^ n * fixOne) : Nat) : Int)

/-- The allpass gain of DIFFUSION in percent (R56). -/
def diffusionGain (percent : Nat) : Int := (roundDiv (percent * 24576) 100 : Nat)

/-! ## Lengths of delays -/

/-- The length of a REVERB line at a SIZE in percent, from its length at 100 % and 48 kHz (R54). -/
def sizedLength (r : Rate) (len size : Nat) : Nat := roundDiv (len * size) 100 * r.pick 1 2

/-- Hundredths of a millisecond in 1/256 sample (R58, R67). -/
def hundredthsToDelay (r : Rate) (x : Nat) : Nat := roundDiv (x * r.hz * 256) 100000

/-! ## Oscillators (R40 to R43) -/

/-- The phase increment of a free rate in hundredths of a hertz (R40). -/
def lfoIncrement (r : Rate) (rate : Nat) : Nat := roundDiv (rate * 4294967296) (100 * r.hz)

/-- The phase formed from a clock for a division of `p / q` beats (R41). -/
def syncedPhase (fpb phase beat p q : Nat) : BitVec 32 :=
  let b := (beat - 1) * fpb + phase
  BitVec.ofNat 32 (b * q % (fpb * p) * 4294967296 / (fpb * p))

/-- The triangle (R42). -/
def triangle (phase : BitVec 32) : Int :=
  let q := phase.toNat / 65536
  if q < 16384 then 2 * q
  else if q < 49152 then min 32767 (65536 - 2 * (q : Int))
  else 2 * (q : Int) - 131072

/-- Entries 0 to 23 of the sine table (R42). -/
def sinePiece0 : List Nat :=
  [0, 201, 402, 603, 804, 1005, 1206, 1407, 1608, 1809, 2009, 2210,
   2410, 2611, 2811, 3012, 3212, 3412, 3612, 3811, 4011, 4210, 4410, 4609]

/-- Entries 24 to 47 of the sine table (R42). -/
def sinePiece1 : List Nat :=
  [4808, 5007, 5205, 5404, 5602, 5800, 5998, 6195, 6393, 6590, 6786, 6983,
   7179, 7375, 7571, 7767, 7962, 8157, 8351, 8545, 8739, 8933, 9126, 9319]

/-- Entries 48 to 71 of the sine table (R42). -/
def sinePiece2 : List Nat :=
  [9512, 9704, 9896, 10087, 10278, 10469, 10659, 10849, 11039, 11228, 11417, 11605,
   11793, 11980, 12167, 12353, 12539, 12725, 12910, 13094, 13279, 13462, 13645, 13828]

/-- Entries 72 to 95 of the sine table (R42). -/
def sinePiece3 : List Nat :=
  [14010, 14191, 14372, 14553, 14732, 14912, 15090, 15269, 15446, 15623, 15800, 15976,
   16151, 16325, 16499, 16673, 16846, 17018, 17189, 17360, 17530, 17700, 17869, 18037]

/-- Entries 96 to 119 of the sine table (R42). -/
def sinePiece4 : List Nat :=
  [18204, 18371, 18537, 18703, 18868, 19032, 19195, 19357, 19519, 19680, 19841, 20000,
   20159, 20317, 20475, 20631, 20787, 20942, 21096, 21250, 21403, 21554, 21705, 21856]

/-- Entries 120 to 143 of the sine table (R42). -/
def sinePiece5 : List Nat :=
  [22005, 22154, 22301, 22448, 22594, 22739, 22884, 23027, 23170, 23311, 23452, 23592,
   23731, 23870, 24007, 24143, 24279, 24413, 24547, 24680, 24811, 24942, 25072, 25201]

/-- Entries 144 to 167 of the sine table (R42). -/
def sinePiece6 : List Nat :=
  [25329, 25456, 25582, 25708, 25832, 25955, 26077, 26198, 26319, 26438, 26556, 26674,
   26790, 26905, 27019, 27133, 27245, 27356, 27466, 27575, 27683, 27790, 27896, 28001]

/-- Entries 168 to 191 of the sine table (R42). -/
def sinePiece7 : List Nat :=
  [28105, 28208, 28310, 28411, 28510, 28609, 28706, 28803, 28898, 28992, 29085, 29177,
   29268, 29358, 29447, 29534, 29621, 29706, 29791, 29874, 29956, 30037, 30117, 30195]

/-- Entries 192 to 215 of the sine table (R42). -/
def sinePiece8 : List Nat :=
  [30273, 30349, 30424, 30498, 30571, 30643, 30714, 30783, 30852, 30919, 30985, 31050,
   31113, 31176, 31237, 31297, 31356, 31414, 31470, 31526, 31580, 31633, 31685, 31736]

/-- Entries 216 to 239 of the sine table (R42). -/
def sinePiece9 : List Nat :=
  [31785, 31833, 31880, 31926, 31971, 32014, 32057, 32098, 32137, 32176, 32213, 32250,
   32285, 32318, 32351, 32382, 32412, 32441, 32469, 32495, 32521, 32545, 32567, 32589]

/-- Entries 240 to 256 of the sine table (R42). -/
def sinePiece10 : List Nat :=
  [32609, 32628, 32646, 32663, 32678, 32692, 32705, 32717, 32728, 32737, 32745, 32752,
   32757, 32761, 32765, 32766, 32767]

/-- Entries 0 to 256 of the sine table, a quarter cycle (R42). -/
def sineQuarter : List Nat := sinePiece0 ++ sinePiece1 ++ sinePiece2 ++ sinePiece3 ++ sinePiece4 ++ sinePiece5 ++ sinePiece6 ++ sinePiece7 ++ sinePiece8 ++ sinePiece9 ++ sinePiece10

/-- Entry `k` of the sine table of 1,024 (R42): 32,767 times the sine of 2 pi k / 1,024, rounded to nearest. -/
def sineEntry (k : Nat) : Int :=
  let j := k % 1024
  let at' (n : Nat) : Int := (sineQuarter.getD n 0 : Nat)
  if j ≤ 256 then at' j
  else if j ≤ 512 then at' (512 - j)
  else if j ≤ 768 then -at' (j - 512)
  else -at' (1024 - j)

/-- The sine (R42). -/
def sine (phase : BitVec 32) : Int :=
  let i := phase.toNat / 4194304
  let f := phase.toNat % 4194304 / 16384
  sineEntry i + (sineEntry (i + 1) - sineEntry i) * f / 256

/-- A modulated fractional delay, held inside the line of capacity `cap` (R43). -/
def modulated (base depth v : Int) (cap : Nat) : Nat :=
  (clampInt 256 (256 * ((cap : Int) - 1)) (base + depth * v / 32768)).toNat

/-! ## Tempo (R90, R100) -/

/-- Frames per beat in 1/256 frame at a tempo in hundredths of a BPM (R90). -/
def fpbOf (r : Rate) (tempo : Nat) : Nat := roundDiv (r.hz * 6000 * 256) tempo

/-- The tempo of a tap series (R100). -/
def tempoOf (r : Rate) (series : List Nat) : Nat := roundDiv (r.hz * 6000 * series.length) series.sum

/-- The beats of a division as a fraction (R53). -/
def divisionBeats (code : Nat) : Nat × Nat :=
  [(4, 1), (2, 1), (3, 1), (4, 3), (1, 1), (3, 2), (2, 3), (1, 2), (3, 4), (1, 3), (1, 4), (3, 8), (1, 6), (1, 8)].getD
    code (1, 1)

/-- A delay halved, rounding down, until it is at most `most`, at most `fuel` times (R53). -/
def halveTo (most : Nat) : Nat → Nat → Nat
  | 0, d => d
  | fuel + 1, d => if d ≤ most then d else halveTo most fuel (d / 2)

/-- The synced delay in 1/256 sample before any halving (R53). -/
def syncedRaw (fpb code : Nat) : Nat := roundDiv (fpb * (divisionBeats code).1) (divisionBeats code).2

/-- The synced delay in 1/256 sample (R53). -/
def syncedDelay (fpb code most : Nat) : Nat := halveTo most 64 (syncedRaw fpb code)

end Sys2Proof.Machine
end

