-- ==== Sys2Proof/Machine/Operands.lean ====
section
/-! DEFINITION. The operand forms of the requests: creation choices with their lines, pages and units (R47 to R49, R54),
the parameters of each kind with ranges, defaults and classes (R50, R56, R59, R62, R65, R69), and the acceptance and
clamping of values and ramps (R53, R74). -/
namespace Sys2Proof.Machine

/-! ## Creation choices (R6, R47) -/

/-- Whether the kind takes a span. -/
def takesSpan : Kind → Bool
  | .delay | .pingpong | .multitap => true
  | .reverb | .chorus => false

/-- Whether a variant or mode field is right for a kind (R6). -/
def variantOk : Kind → Field Variant → Bool
  | .reverb, .is .room | .reverb, .is .hall | .reverb, .is .plate => true
  | .chorus, .is .chorus | .chorus, .is .flange => true
  | .delay, .absent | .pingpong, .absent | .multitap, .absent => true
  | _, _ => false

/-- Step 1 of R6: a known kind, with the fields it takes and no others. A mirror choice may be missing (R47); one that is
neither yes nor no fits no form (R168). -/
def formOk (f : CreateForm) : Bool :=
  match f.kind with
  | .is k =>
    variantOk k f.variant && (f.span.isSome == takesSpan k) && (f.taps.isSome == decide (k = .multitap)) &&
      (f.voices.isSome == decide (k = .chorus)) && decide (f.mirror ≠ .unknown)
  | _ => false

/-- The longest span in milliseconds (R47). -/
def spanMax (r : Rate) : Kind → Nat
  | .delay => r.pick 10000 5000
  | _ => r.pick 5000 2500

/-- The choices of a form that passes `formOk`, clamped, and the fields that were clamped (R6, R47). -/
def choiceOf (r : Rate) (f : CreateForm) : Choice × List ClampName :=
  let k := match f.kind with | .is k => k | _ => .delay
  let span := match f.span with | some x => x | none => 0
  let span' := if takesSpan k then clampNat 10 (spanMax r k) span else 0
  let taps := match f.taps with | some x => x | none => 0
  let taps' := if k = .multitap then clampNat 1 8 taps else 0
  let voices := match f.voices with | some x => x | none => 0
  let voices' := if k = .chorus then clampNat 1 4 voices else 0
  let c : Choice :=
    { kind := k, variant := match f.variant with | .is v => some v | _ => none, span := r.ms span', taps := taps',
      voices := voices', mirror := decide (f.mirror = .is true) }
  (c, (if span' = span then [] else [.span]) ++ (if taps' = taps then [] else [.tapCapacity]) ++
    (if voices' = voices then [] else [.voiceCapacity]))

/-- The drain limit of a form: 80 tenths when missing, else clamped to 5 to 200 (R6). -/
def drainLimitOf (d : Option Nat) : Nat := match d with | some x => clampNat 5 200 x | none => 80

/-- Whether a drain limit was clamped. -/
def drainClamps (d : Option Nat) : List ClampName :=
  match d with
  | some x => if clampNat 5 200 x = x then [] else [.drainLimit]
  | none => []

/-! ## Lines, pages and units (R48, R49, R54) -/

/-- The lengths at SIZE 100 % and 48 kHz of allpass lines 0 to 3 and network lines 0 to 3 (R54). -/
def reverbLengths : Option Variant → List Nat
  | some .hall => [142, 107, 379, 277, 1931, 2467, 2819, 3371]
  | some .room => [89, 67, 233, 171, 887, 1109, 1297, 1493]
  | _ => [53, 71, 197, 263, 1187, 1429, 1663, 1931]

/-- The predelay maximum in milliseconds (R54). -/
def predelayMax : Option Variant → Nat
  | some .room => 100
  | _ => 250

/-- The capacities of an instance's lines, in the order of its line list (R48, R54). -/
def lineCapacities (r : Rate) (c : Choice) : List Nat :=
  match c.kind with
  | .delay | .multitap => [c.span + 1]
  | .pingpong => [c.span + 1, c.span + 1]
  | .chorus => List.replicate c.voices (r.pick 1920 3840)
  | .reverb =>
    let sized := (reverbLengths c.variant).map fun l => sizedLength r l 150
    (r.ms (predelayMax c.variant) + 1) :: ((sized.take 4).map (· + 1) ++ (sized.drop 4).map (· + r.pick 64 128))

/-- The pages of a line of capacity `cap` (R2, R48). -/
def linePages (cap : Nat) : Nat := (cap + 1023) / 1024 + 1

/-- The sum of P over an instance's lines, Q of R111. -/
def pairsNeeded (r : Rate) (c : Choice) : Nat := ((lineCapacities r c).map linePages).sum

/-- The pages an instance is charged (R48). -/
def pagesNeeded (r : Rate) (c : Choice) : Nat := pairsNeeded r c * if c.mirror then 2 else 1

/-- How many lines an instance has (R2). -/
def lineCount (c : Choice) : Nat :=
  match c.kind with
  | .reverb => 9
  | .delay | .multitap => 1
  | .pingpong => 2
  | .chorus => c.voices

/-- The units an instance is charged (R49). -/
def unitsNeeded (c : Choice) : Nat :=
  (match c.kind with
    | .reverb => 200
    | .delay => 40
    | .pingpong => 64
    | .multitap => 24 + 10 * c.taps
    | .chorus => 32 + 12 * c.voices) + if c.mirror then 2 * lineCount c else 0

/-- How many oscillators an instance has (R55, R58, R68). -/
def oscCount (c : Choice) : Nat :=
  match c.kind with
  | .reverb | .delay => 1
  | .chorus => c.voices
  | .pingpong | .multitap => 0

/-! ## Parameters (R50) -/

/-- The form a parameter's value is carried in: a gain record, a number, one of a fixed set of names (numbered from 0,
log entry 14), a time in samples or in milliseconds, a base delay in hundredths of a millisecond, a rate. -/
inductive PForm
  | gain | plain | named | samples | millis | base | rate
  deriving DecidableEq, Repr

/-- A parameter of a kind: its form, its range and default in the units it is carried in, the minimum of its ramp in
milliseconds (R74), and whether it is DISCRETE. -/
structure PSpec where
  form : PForm
  lo : Int
  hi : Int
  dflt : Int
  minRamp : Nat
  discrete : Bool
  deriving DecidableEq, Repr

/-- A CONTINUOUS parameter with no minimum ramp. -/
def PSpec.cont (form : PForm) (lo hi dflt : Int) : PSpec :=
  { form := form, lo := lo, hi := hi, dflt := dflt, minRamp := 0, discrete := false }

/-- A coefficient with the minimum ramp of 10 ms (R74). -/
def PSpec.coef (lo hi dflt : Int) : PSpec :=
  { form := .plain, lo := lo, hi := hi, dflt := dflt, minRamp := 10, discrete := false }

/-- A DISCRETE parameter. -/
def PSpec.disc (form : PForm) (lo hi dflt : Int) : PSpec :=
  { form := form, lo := lo, hi := hi, dflt := dflt, minRamp := 0, discrete := true }

/-- A value by the variant of a REVERB: ROOM, HALL, PLATE (R56). -/
def byVariant (v : Option Variant) (room hall plate : Int) : Int :=
  match v with
  | some .room => room
  | some .hall => hall
  | _ => plate

/-- The parameters of a REVERB beside those of R50 (R56). -/
def reverbParam (v : Option Variant) : Nat → Option PSpec
  | 2 => some (.cont .plain 2 200 (byVariant v 12 24 18))
  | 3 => some { form := .plain, lo := 50, hi := 150, dflt := 100, minRamp := 200, discrete := false }
  | 4 => some (.cont .millis 0 (predelayMax v) (byVariant v 10 25 0))
  | 5 => some (.cont .plain 10 200 (byVariant v 80 60 120))
  | 6 => some (.cont .plain 0 100 (byVariant v 60 70 85))
  | 7 => some (.cont .plain 0 32 (byVariant v 4 8 2))
  | 8 => some (.cont .rate 5 500 (byVariant v 80 50 30))
  | _ => none

/-- The parameters of a DELAY (R59). -/
def delayParam (r : Rate) (span : Nat) : Nat → Option PSpec
  | 2 => some (.cont .samples 1 span (r.ms 500))
  | 3 => some (.coef (-32440) 32440 9830)
  | 4 => some (.cont .plain 10 200 80)
  | 5 => some (.cont .plain 0 100 0)
  | 6 => some (.cont .rate 5 500 30)
  | 7 => some (.disc .named 0 1 1)
  | _ => none

/-- The parameters of a PINGPONG (R62). -/
def pingpongParam (r : Rate) (span : Nat) : Nat → Option PSpec
  | 2 => some (.cont .samples 1 span (r.ms 375))
  | 3 => some (.cont .samples 1 span (r.ms 375))
  | 4 => some (.coef (-32440) 32440 0)
  | 5 => some (.coef (-32440) 32440 13107)
  | 6 => some (.cont .plain 10 200 80)
  | 7 => some (.disc .named 0 1 1)
  | _ => none

/-- The parameters of a MULTITAP (R65): TIME_k, GAIN_k and PAN_k are 3k + 5, 3k + 6 and 3k + 7. -/
def multitapParam (r : Rate) (span taps : Nat) (n : Nat) : Option PSpec :=
  if n = 2 then some (.disc .plain 1 taps taps)
  else if n = 3 then some (.coef (-32440) 32440 0)
  else if n = 4 then some (.cont .plain 10 200 80)
  else if 8 ≤ n then
    let k := (n - 5) / 3
    if taps < k then none
    else if (n - 5) % 3 = 0 then some (.cont .samples 1 span (r.ms 125 * k : Nat))
    else if (n - 5) % 3 = 1 then some (.coef (-32768) 32767 16384)
    else some (.cont .plain (-100) 100 (if k % 2 = 1 then -50 else 50))
  else none

/-- The parameters of a CHORUS (R69): `fl` says the mode is FLANGE. -/
def chorusParam (fl : Bool) (voices : Nat) : Nat → Option PSpec
  | 2 => some (.disc .plain 1 voices voices)
  | 3 => some (if fl then .cont .base 10 1000 200 else .cont .base 100 3000 1500)
  | 4 => some (.cont .plain 0 1000 (if fl then 150 else 200))
  | 5 => some (.cont .rate 1 2000 (if fl then 20 else 80))
  | 6 => some (.disc .named 0 1 (if fl then 1 else 0))
  | 7 => some (.cont .plain 0 360 (if fl then 180 else 90))
  | 8 => some (if fl then .coef (-32440) 32440 16384 else .coef 0 0 0)
  | _ => none

/-- Whether a CHORUS is in the FLANGE mode. -/
def Choice.flange (c : Choice) : Bool := decide (c.variant = some .flange)

/-- The parameter of that number of an instance with these choices; none for a number its kind does not have and for a
per-tap parameter above the tap capacity (R50, R65). -/
def paramSpec (r : Rate) (c : Choice) (n : Nat) : Option PSpec :=
  if n = 0 then some { form := .gain, lo := -32768, hi := 32767, dflt := 16384, minRamp := 10, discrete := false }
  else if n = 1 then some (.cont .plain 0 2000 100)
  else if 31 < n then none
  else match c.kind with
    | .reverb => reverbParam c.variant n
    | .delay => delayParam r c.span n
    | .pingpong => pingpongParam r c.span n
    | .multitap => multitapParam r c.span c.taps n
    | .chorus => chorusParam c.flange c.voices n

/-- Whether a form may hold a synced division (R53, R73): the time parameters of R50 and the rate parameters. -/
def PForm.syncs : PForm → Bool
  | .samples | .millis | .rate => true
  | _ => false

/-- Whether a form is a delay time in the sense of section 4.6 (BASE_DELAY included). -/
def PForm.isTime : PForm → Bool
  | .samples | .millis | .base => true
  | _ => false

/-- A free value as the PARAMETER UNIT keeps it: a delay in 1/256 sample, at least 256, for a time; the value itself
otherwise (R50, log entry 18). -/
def keptValue (r : Rate) (f : PForm) (x : Int) : Int :=
  match f with
  | .samples => max 256 (x * 256)
  | .millis => max 256 (x * r.pick 48 96 * 256)
  | .base => max 256 (hundredthsToDelay r x.toNat : Nat)
  | _ => x

/-- The largest delay of a time parameter in 1/256 sample (R53). -/
def largestDelay (r : Rate) (sp : PSpec) : Nat := (keptValue r sp.form sp.hi).toNat

/-- The default of a parameter as a value in effect (R50): a default outside the range is taken at its end. -/
def defaultVal (r : Rate) (sp : PSpec) : Val :=
  match sp.form with
  | .gain => { m := 16384, e := 1 }
  | f => { m := keptValue r f (clampInt sp.lo sp.hi sp.dflt), e := 0 }

/-- A parameter record at its default (R72). -/
def defaultParam (r : Rate) (n : Nat) (sp : PSpec) : Param :=
  { num := n, prev := defaultVal r sp, value := defaultVal r sp, target := defaultVal r sp, ramp := none, discrete := sp.discrete,
    division := none, xfade := none, waiting := none }

/-- The parameter records of an instance at creation, by number (R72). -/
def defaultParams (r : Rate) (c : Choice) : List Param :=
  (List.range 32).filterMap fun n => (paramSpec r c n).map (defaultParam r n)

/-! ## Acceptance of values and ramps (R73, R74) -/

/-- Step 1 of R73 for a value: a known form, a gain record for OUT_GAIN and for no other parameter, a division code of
at most 13. -/
def valueFormOk (n : Nat) (v : ValueForm) : Bool :=
  match v with
  | .unknown => false
  | .gain _ _ => decide (n = 0)
  | .free _ => decide (n ≠ 0)
  | .division code => decide (code ≤ 13)

/-- A value accepted and clamped by its parameter, with the fields clamped; none where step 5 of R73 refuses it. `fpb`
is that of the linked clock, if any: a synced delay that must be halved counts as clamped (R53, R74). A number that is
neither name of SHAPE or CHANGE_MODE is refused there too, not clamped (R50, R59, R62, R69, log entry 45). -/
def acceptValue (r : Rate) (sp : PSpec) (fpb : Option Nat) (v : ValueForm) : Option (Accepted × List ClampName) :=
  match sp.form, v with
  | .gain, .gain m e =>
    let m' := clampInt (-32768) 32767 m
    let e' := clampInt (-6) 2 e
    some (.gain { m := m', e := e' }, (if m' = m then [] else [.coefficient]) ++ (if e' = e then [] else [.shift]))
  | .gain, _ => none
  | .named, .free x => if sp.lo ≤ x ∧ x ≤ sp.hi then some (.free x, []) else none
  | _, .free x =>
    let x' := clampInt sp.lo sp.hi x
    some (.free x', if x' = x then [] else [.value])
  | f, .division code =>
    if f.syncs then
      some (.division code,
        match fpb with
        | some b => if f.isTime && decide (largestDelay r sp < syncedRaw b code) then [.value] else []
        | none => [])
    else none
  | _, _ => none

/-- A ramp in milliseconds held to the parameter's minimum and to 5,000 (R74). -/
def acceptRamp (lo ramp : Nat) : Nat := clampNat lo 5000 ramp

/-- Whether a ramp was clamped; the ramp of a DISCRETE parameter is not used and not reported (R74). -/
def rampClamps (sp : PSpec) (ramp : Nat) : List ClampName :=
  if sp.discrete ∨ acceptRamp sp.minRamp ramp = ramp then [] else [.ramp]

/-- Whether an integer is a coefficient (R28). -/
def coefOk (x : Int) : Bool := decide (-32768 ≤ x) && decide (x ≤ 32767)

/-! ## Channels and the reserves of the straps -/

/-- The number of channels of one direction (R156). -/
def channelCount (r : Rate) : Nat := r.pick 64 32

/-- The channels of one lane (R156). -/
def perLane (r : Rate) : Nat := r.pick 16 8

/-- The page reserves (R119). -/
def pageReserve (x : Straps) : PerPort Nat :=
  match x.split with
  | .even => ⟨2032, 2032, 2032⟩
  | .twoDesk => ⟨3048, 3048, 508⟩

/-- The common page share (R119). -/
def pageCommon (x : Straps) : Nat :=
  match x.split with
  | .even => 2032
  | .twoDesk => 1524

/-- The unit reserves (R119). -/
def unitReserve (x : Straps) : PerPort Nat :=
  match x.split with
  | .even => x.rate.pick ⟨512, 512, 512⟩ ⟨256, 256, 256⟩
  | .twoDesk => x.rate.pick ⟨768, 768, 128⟩ ⟨384, 384, 64⟩

/-- The common unit share (R119). -/
def unitCommon (x : Straps) : Nat :=
  match x.split with
  | .even => x.rate.pick 512 256
  | .twoDesk => x.rate.pick 384 192

/-- The unit budget (R49, R119). -/
def unitBudget (x : Straps) : Nat := x.rate.pick 2048 1024

end Sys2Proof.Machine
end

