-- ==== Sys2Proof/Machine/Pages.lean ====
section
/-! DEFINITION. The delay memory and the page pool (chapter 6): samples, the page table, the spare pool, giving pages to
lines, and the ALLOCATOR's tests and charges. -/
namespace Sys2Proof.Machine

/-! ## Samples (R106, R113) -/

/-- The bank of a page (R106). -/
def pageBank (page : Nat) : Nat := page / 2048

namespace DelayMem

/-- Whether a bank is FAILED; there is no bank above 3. -/
def bankFailed (m : DelayMem) (b : Nat) : Bool :=
  match m.banks[b]? with
  | some x => x.failed
  | none => true

/-- The sample at an address, page times 1,024 plus offset: 0 where none is listed (log entry 2). -/
def sample (m : DelayMem) (a : Nat) : Int :=
  match Sparse.find m.samples a with
  | some v => v
  | none => 0

/-- The sample at an address written; a write to a page of a FAILED bank is dropped (R113). -/
def write (m : DelayMem) (a : Nat) (v : Int) : DelayMem :=
  if m.bankFailed (pageBank (a / 1024)) then m else { m with samples := Sparse.put 0 m.samples a v }

/-- Every sample of a page zero (R116, R127). -/
def zeroPage (m : DelayMem) (page : Nat) : DelayMem :=
  { m with samples := m.samples.filter fun c => decide (c.1 / 1024 ≠ page) }

/-- The eight samples of a group of one page written over the same group of another. -/
def copyGroup (m : DelayMem) (src dst group : Nat) : DelayMem :=
  (List.range 8).foldl (fun n k => n.write (dst * 1024 + group * 8 + k) (m.sample (src * 1024 + group * 8 + k))) m

/-- The eight samples of a group zero. -/
def zeroGroup (m : DelayMem) (page group : Nat) : DelayMem :=
  (List.range 8).foldl (fun n k => n.write (page * 1024 + group * 8 + k) 0) m

/-- The samples stand in rising order of address and none listed is 0. -/
def samplesWf (m : DelayMem) : Bool := Sparse.rising none m.samples && m.samples.all fun c => decide (c.2 ≠ 0)

/-! ## The page table (R106 to R108) -/

/-- What an unlisted page is: FREE and not clean in an OK bank, WITHDRAWN in a FAILED one (R108, R118). -/
def pageDefault (m : DelayMem) (page : Nat) : PageState :=
  if m.bankFailed (pageBank page) then .withdrawn else .free false

/-- The state of a page. -/
def page (m : DelayMem) (n : Nat) : PageState :=
  match Sparse.find m.table n with
  | some x => x
  | none => m.pageDefault n

/-- The state of a page changed; there is no page above 8,191 (R106). -/
def setPage (m : DelayMem) (n : Nat) (x : PageState) : DelayMem :=
  if n < 8192 then { m with table := Sparse.put (m.pageDefault n) m.table n x } else m

/-- The pages stand in rising order and none listed equals what an unlisted one is. -/
def tableWf (m : DelayMem) : Bool :=
  Sparse.rising none m.table && m.table.all fun c => decide (c.2 ≠ m.pageDefault c.1)

/-- The number of pages of a bank in states that a test names, those not listed left out. -/
def countIn (m : DelayMem) (b : Nat) (test : PageState → Bool) : Nat :=
  m.table.countP fun c => decide (pageBank c.1 = b) && test c.2

end DelayMem

/-- FREE, clean or not. -/
def PageState.isFree : PageState → Bool
  | .free _ => true
  | _ => false

/-- SPARE, clean or not. -/
def PageState.isSpare : PageState → Bool
  | .spare _ => true
  | _ => false

namespace DelayMem

/-- The FREE pages of a bank; a FAILED bank has none (R107). -/
def freeIn (m : DelayMem) (b : Nat) : Nat :=
  if m.bankFailed b then 0 else 2048 - m.countIn b fun x => !x.isFree

/-- The FREE pages of all banks. -/
def freePages (m : DelayMem) : Nat := m.freeIn 0 + m.freeIn 1 + m.freeIn 2 + m.freeIn 3

/-- The ALLOCATED pages of a bank. -/
def allocatedIn (m : DelayMem) (b : Nat) : Nat := m.countIn b fun x => match x with | .allocated _ => true | _ => false

/-- The allocatable pages: FREE and ALLOCATED (R107). -/
def allocatable (m : DelayMem) : Nat :=
  m.freePages + m.allocatedIn 0 + m.allocatedIn 1 + m.allocatedIn 2 + m.allocatedIn 3

/-- The WITHDRAWN pages of a bank: in a FAILED bank every page that is in no other state. -/
def withdrawnIn (m : DelayMem) (b : Nat) : Nat :=
  (if m.bankFailed b then 2048 - m.countIn b (fun _ => true) else 0) + m.countIn b fun x => decide (x = .withdrawn)

/-! ## The spare pool (R109) -/

/-- The pages a bank gives to the pool, highest first, passing over the RETIRED ones; no bank gives more than 16. -/
def spareCandidates (retired : List Nat) (b : Nat) : List Nat :=
  (((List.range 80).map fun k => b * 2048 + 2047 - k).filter fun p => decide (p ∉ retired)).take 16

/-- The pool built by rounds from the banks 3, 2, 1, 0 (R109). -/
def spareBuild (retired : List Nat) : List Nat :=
  let c3 := spareCandidates retired 3
  let c2 := spareCandidates retired 2
  let c1 := spareCandidates retired 1
  let c0 := spareCandidates retired 0
  ((List.range 16).flatMap fun k => [c3.getD k 0, c2.getD k 0, c1.getD k 0, c0.getD k 0]).take (64 - retired.length)

/-- The page table at engine start and at restart (R108). -/
def tableBuild (retired spares : List Nat) : List (Nat × PageState) :=
  spares.foldl (fun t p => Sparse.insert t p (.spare false))
    (retired.foldl (fun t p => Sparse.insert t p .retired) [])

/-- The delay memory set up from a retirement list, its samples kept (R108). -/
def rebuild (m : DelayMem) (retired : List Nat) : DelayMem :=
  { table := tableBuild retired (spareBuild retired), samples := m.samples, spares := spareBuild retired,
    banks := Vector.replicate 4 { failed := false, failures := [] }, priming := [], clearLeft := 0 }

/-- A spare taken from the pool, the first not in the excluded bank, with the pool less it (R109). -/
def takeSpare (m : DelayMem) (exclude : Option Nat) : Option (Nat × DelayMem) :=
  match m.spares.find? fun p => decide (exclude ≠ some (pageBank p)) with
  | some p => some (p, { m with spares := m.spares.erase p })
  | none => none

/-! ## Giving pages to lines (R110, R111) -/

/-- The lowest FREE page from `cur` on, below `stop`, walking the listed pages in rising order. -/
def firstFree (stop : Nat) : Nat → List (Nat × PageState) → Option Nat
  | cur, [] => if cur < stop then some cur else none
  | cur, (j, x) :: t =>
    if j < cur then firstFree stop cur t
    else if cur < j then (if cur < stop then some cur else none)
    else if x.isFree then some cur
    else firstFree stop (cur + 1) t

/-- The page taken within a bank: the lowest clean FREE page, else the lowest FREE page (R110). -/
def choosePage (m : DelayMem) (b : Nat) : Option Nat :=
  match m.table.find? fun c => decide (pageBank c.1 = b) && decide (c.2 = .free true) with
  | some c => some c.1
  | none => firstFree (b * 2048 + 2048) (b * 2048) m.table

/-- The OK bank with the most FREE pages, the lowest on a tie, `exclude` left out; none where no bank has one. -/
def mostFree (m : DelayMem) (exclude : Option Nat) : Option Nat :=
  let best := [0, 1, 2, 3].foldl (fun (acc : Option Nat × Nat) b =>
    if exclude ≠ some b ∧ acc.2 < m.freeIn b then (some b, m.freeIn b) else acc) (none, 0)
  best.1

/-- The next bank in rotation from `b` on that has a FREE page (R110). -/
def nextBank (m : DelayMem) (b : Nat) : Option Nat :=
  [b % 4, (b + 1) % 4, (b + 2) % 4, (b + 3) % 4].find? fun x => decide (0 < m.freeIn x)

/-- Pages given so far: the memory, and the pages of the line with those that were not clean. -/
structure Giving where
  mem : DelayMem
  pages : List Nat
  mirrors : List Nat
  dirty : List Nat
  dirtyMirrors : List Nat

/-- A page given at a holder (R110): it becomes ALLOCATED. -/
def Giving.page (g : Giving) (n : Nat) (h : Holder) : Giving :=
  let clean := decide (g.mem.page n = .free true)
  let mem := g.mem.setPage n (.allocated h)
  match h.list with
  | .primary =>
    { g with mem := mem, pages := g.pages ++ [n], dirty := if clean then g.dirty else g.dirty ++ [n] }
  | .mirror =>
    { g with mem := mem, mirrors := g.mirrors ++ [n],
             dirtyMirrors := if clean then g.dirtyMirrors else g.dirtyMirrors ++ [n] }

/-- The pages of an unmirrored line given in rotation: `left` positions still to give from bank `b` on (R110). -/
def giveRotating (slot line : Nat) : Nat → Nat → Giving → Giving
  | 0, _, g => g
  | left + 1, b, g =>
    match g.mem.nextBank b with
    | none => g
    | some b' =>
      match g.mem.choosePage b' with
      | none => g
      | some n =>
        giveRotating slot line left (b' + 1)
          (g.page n { slot := slot, line := line, pos := g.pages.length, list := .primary })

/-- The pages of a mirrored line given in pairs (R111). -/
def givePairs (slot line : Nat) : Nat → Giving → Giving
  | 0, g => g
  | left + 1, g =>
    match g.mem.mostFree none with
    | none => g
    | some b =>
      match g.mem.choosePage b, g.mem.mostFree (some b) with
      | some n, some b' =>
        match g.mem.choosePage b' with
        | none => g
        | some n' =>
          let pos := g.pages.length
          givePairs slot line left
            ((g.page n { slot := slot, line := line, pos := pos, list := .primary }).page n'
              { slot := slot, line := line, pos := pos, list := .mirror })
      | _, _ => g

/-- The pages of one line given (R110, R111). -/
def giveLine (m : DelayMem) (slot line p : Nat) (mirrored : Bool) : Giving :=
  let g : Giving := { mem := m, pages := [], mirrors := [], dirty := [], dirtyMirrors := [] }
  if mirrored then givePairs slot line p g
  else match m.mostFree none with
    | some b => giveRotating slot line p b g
    | none => g

/-- The lines of an instance with their pages, in line order, and the pages that must be primed in queue order (R110,
R116). -/
def giveLines (slot : Nat) (mirrored : Bool) : Nat → List Nat → DelayMem → DelayMem × List Line × List Nat
  | _, [], m => (m, [], [])
  | ix, cap :: caps, m =>
    let g := giveLine m slot ix (linePages cap) mirrored
    let line : Line := { capacity := cap, pages := g.pages, mirrors := g.mirrors, writePos := 0, damp := 0 }
    let r := giveLines slot mirrored (ix + 1) caps g.mem
    (r.1, line :: r.2.1, g.dirty ++ g.dirtyMirrors ++ r.2.2)

/-- Whether the pages of a charge can be placed (R120 condition 1, R111). -/
def placeable (m : DelayMem) (mirrored : Bool) (pages pairs : Nat) : Bool :=
  if mirrored then
    decide (2 * pairs ≤ min (m.freeIn 0) pairs + min (m.freeIn 1) pairs + min (m.freeIn 2) pairs + min (m.freeIn 3) pairs)
  else decide (pages ≤ m.freePages)

end DelayMem

/-! ## The ALLOCATOR (R119 to R121) -/

/-- The sum over the ports of what is charged beyond the reserve (R119). -/
def excess (charged reserve : PerPort Nat) : Nat :=
  (charged.a - reserve.a) + (charged.b - reserve.b) + (charged.c - reserve.c)

namespace Alloc

/-- Pages charged per port. -/
def pages (a : Alloc) : PerPort Nat := a.charged.map Charge.pages

/-- Units charged per port. -/
def units (a : Alloc) : PerPort Nat := a.charged.map Charge.units

/-- A charge made to a port. -/
def charge (a : Alloc) (p : Port) (n u : Nat) : Alloc :=
  let c := a.charged.get p
  { a with charged := a.charged.set p { pages := c.pages + n, units := c.units + u } }

/-- A charge taken back from a port. -/
def uncharge (a : Alloc) (p : Port) (n u : Nat) : Alloc :=
  let c := a.charged.get p
  { a with charged := a.charged.set p { pages := c.pages - n, units := c.units - u } }

/-- The page excess of the engine (R119). -/
def pageExcess (a : Alloc) (x : Straps) : Nat := excess a.pages (pageReserve x)

/-- The unit excess of the engine (R119). -/
def unitExcess (a : Alloc) (x : Straps) : Nat := excess a.units (unitReserve x)

end Alloc

namespace State

/-- The test of a charge of pages and units to port `p` for the choices `c` (R120): the reason of the first condition
that fails, or none where all hold. -/
def chargeTest (s : State) (p : Port) (c : Choice) : Option Reason :=
  let n := pagesNeeded s.rate c
  let u := unitsNeeded c
  let after := s.alloc.charge p n u
  if !s.mem.placeable c.mirror n (pairsNeeded s.rate c) then some .noPages
  else if pageCommon s.straps < after.pageExcess s.straps then some .noPages
  else if unitBudget s.straps - s.alloc.units.sum < u then some .noUnits
  else if unitCommon s.straps < after.unitExcess s.straps then some .noUnits
  else none

/-- The test of a charge moving from `p` to `q` (R20, R120): conditions 2 and 4 on the charges after the move. -/
def moveTest (s : State) (p q : Port) (n u : Nat) : Option Reason :=
  let after := (s.alloc.uncharge p n u).charge q n u
  if pageCommon s.straps < after.pageExcess s.straps then some .noPages
  else if unitCommon s.straps < after.unitExcess s.straps then some .noUnits
  else none

/-- What a port may still be charged: the lesser of what is free and its reserve's rest with the common share's rest
(R123). -/
def headroom (free charged reserve common excess : Nat) : Nat := min free ((reserve - charged) + (common - excess))

end State

end Sys2Proof.Machine
end

