-- ==== Sys2Proof/Machine/Integrity.lean ====
section
/-! DEFINITION. Memory integrity (chapter 7) with the read outcomes and bank failure of chapter 6: failure lists, bank
failure, the watch table, retirement, migration, the patrol scrubber and the nonvolatile retirement list. -/
namespace Sys2Proof.Machine

/-- What a group reads as in a frame, before any bank failure is looked at: CLEAN unless listed (R113). -/
def listedOutcome (faults : List GroupFault) (page group : Nat) : GroupOutcome :=
  match faults.find? fun g => decide (g.page = page) && decide (g.group = group) with
  | some g => g.outcome
  | none => .clean

/-- Whether the nonvolatile list can be read (R173): its check holds, and it names at most 64 pages, none above 8,191 and
none twice. -/
def nvReadable (nv : NvImage) : Bool :=
  nv.checkGood && decide (nv.pages.length ≤ 64) && nv.pages.all (fun p => decide (p ≤ 8191)) && decide nv.pages.Nodup

namespace State

/-- The memory changed. -/
def modMem (s : State) (f : DelayMem → DelayMem) : State := { s with mem := f s.mem }

/-- The integrity unit changed. -/
def modInteg (s : State) (f : Integrity → Integrity) : State := { s with integ := f s.integ }

/-- The outcome of reading a group: UNCORRECTABLE without access in a FAILED bank (R118). -/
def outcome (s : State) (faults : List GroupFault) (page group : Nat) : GroupOutcome :=
  if s.mem.bankFailed (pageBank page) then .uncorrectable else listedOutcome faults page group

/-- The holder of an ALLOCATED page. -/
def holderOf (s : State) (page : Nat) : Option Holder :=
  match s.mem.page page with
  | .allocated h => some h
  | _ => none

/-- The owner of the instance on whose line a page is; none for a page on which no instance sits (R129). -/
def pageOwner (s : State) (page : Nat) : Option Port :=
  match s.holderOf page with
  | some h => (s.inst h.slot).map Inst.owner
  | none => none

/-- The slot of an ALLOCATED page. -/
def pageSlot (s : State) (page : Nat) : Option Nat := (s.holderOf page).map Holder.slot

/-- The page at the same position of the other list of a mirrored line (R128, R136). -/
def partner (s : State) (h : Holder) : Option Nat :=
  match s.inst h.slot with
  | none => none
  | some i =>
    match i.lines[h.line]? with
    | none => none
    | some l =>
      match h.list with
      | .primary => l.mirrors[h.pos]?
      | .mirror => l.pages[h.pos]?

/-! ## Bank failure (R118, R139) -/

/-- The copy in progress when a bank fails (R139): cancelled where its source or target lies in the bank. -/
def failCopy (s : State) (b : Nat) : State :=
  match s.integ.copy with
  | none => s
  | some c =>
    if pageBank c.source = b ∨ pageBank c.target = b then
      let s := if pageBank c.target = b then s.modMem fun m => m.setPage c.target .withdrawn
        else s.modMem fun m => { m.setPage c.target (.spare false) with spares := m.spares ++ [c.target] }
      s.modInteg fun x =>
        { x with copy := none, copyTried := x.copyTried || !s.ending,
                 owed := if pageBank c.source = b then x.owed else x.owed.insert c.source }
    else s

/-- A bank becomes FAILED (R118, R139): its FREE and SPARE pages are WITHDRAWN, its failure list is discarded, queue
and watch entries and marks of its pages go, a copy in it is cancelled, and BANK_FAILED is reported at every port. -/
def failBank (s : State) (b : Nat) : State :=
  let s := s.modMem fun m =>
    { m with banks := m.banks.setIfInBounds b { failed := true, failures := [] },
             table := m.table.filter fun c => !(decide (pageBank c.1 = b) && (c.2.isFree || c.2.isSpare || decide (c.2 = .withdrawn))),
             spares := m.spares.filter fun p => decide (pageBank p ≠ b) }
  let s := s.modInteg fun x =>
    { x with queue := x.queue.filter fun q => decide (pageBank q.page ≠ b),
             watch := x.watch.filter fun w => decide (pageBank w.page ≠ b),
             owed := x.owed.filter fun p => decide (pageBank p ≠ b ∨ (s.holderOf p).isSome),
             reported := x.reported.filter fun p => decide (pageBank p ≠ b ∨ (s.holderOf p).isSome) }
  (s.failCopy b).reportAll .bankFailed (.bankFailed b)

/-- A group entered in the failure list of its bank, unless the bank is FAILED or the group is in the list; the bank
fails when the list comes to 8 groups (R117). -/
def enterFailure (s : State) (page group : Nat) : State :=
  match s.mem.banks[pageBank page]? with
  | none => s
  | some bk =>
    if bk.failed ∨ bk.failures.any (fun f => decide (f.page = page) && decide (f.group = group)) then s
    else
      let fs := bk.failures ++ [{ page := page, group := group, frame := s.frame }]
      if 8 ≤ fs.length then s.failBank (pageBank page)
      else s.modMem fun m => { m with banks := m.banks.setIfInBounds (pageBank page) { bk with failures := fs } }

/-! ## Retirement (R132 to R134, R140, R141) -/

/-- A page becomes RETIRED and is appended to the retirement list; its marks and its watch entry go (R140, R141). -/
def retirePage (s : State) (page : Nat) : State :=
  let s := s.modMem fun m => m.setPage page .retired
  s.modInteg fun x =>
    { x with retired := x.retired ++ [page], owed := x.owed.erase page, reported := x.reported.erase page,
             late := x.late || (s.ending && x.append.isNone && decide (x.recorded = x.retired.length)) }

/-- No spare was found for a page: its retirement is owed, and SPARES_EXHAUSTED is reported once (R141). -/
def exhausted (s : State) (page : Nat) : State :=
  let first := decide (page ∉ s.integ.reported)
  let s := s.modInteg fun x => { x with owed := x.owed.insert page, reported := x.reported.insert page }
  if first then s.reportOwner (s.pageOwner page) .sparesExhausted (.sparesExhausted page) else s

/-- A FREE page retired at once in place of a spare, or marked owed where the pool is empty (R133). -/
def retireFree (s : State) (page : Nat) : State :=
  match s.mem.takeSpare none with
  | none => s.exhausted page
  | some (sp, m) =>
    let s := { s with mem := m.setPage sp (.free false) }
    (s.retirePage page).reportAll .retired (.retired page none)

/-- An ALLOCATED page queued for migration, or refused where the queue holds 8 (R134). -/
def queueMigration (s : State) (page slot : Nat) : State :=
  if 8 ≤ s.integ.queue.length then
    let s := s.modInteg fun x => { x with owed := x.owed.insert page }
    s.reportOwner (s.pageOwner page) .migrateQueueFull (.migrateQueueFull slot page)
  else
    s.modInteg fun x =>
      { x with queue := x.queue ++ [{ page := page, since := s.frame }], owed := x.owed.erase page }

/-- Whether a page is queued for migration or under copy. -/
def migrating (s : State) (page : Nat) : Bool :=
  s.integ.queue.any (fun q => decide (q.page = page)) ||
    (match s.integ.copy with | some c => decide (c.source = page) | none => false)

/-- A request for the retirement of a page, taken whole, at most one per frame and page (R132, R134). -/
def requestRetirement (s : State) (page : Nat) : State :=
  if page ∈ s.integ.requested then s else
    let s := s.modInteg fun x =>
      { x with requested := page :: x.requested, watch := x.watch.filter fun w => decide (w.page ≠ page) }
    if s.mem.bankFailed (pageBank page) then s else
      match s.mem.page page with
      | .free _ => s.retireFree page
      | .allocated h => if s.migrating page then s else s.queueMigration page h.slot
      | _ => s

/-! ## The watch table (R130, R131) -/

/-- The entry a full table gives up: the lowest count, the oldest first seen among those (R130), the first
entered of two that are alike in both (log entry 67). -/
def watchVictim (now : FrameNo) : List Watch → Option Watch
  | [] => none
  | w :: t =>
    match watchVictim now t with
    | none => some w
    | some v => if v.count < w.count ∨ (v.count = w.count ∧ (now - w.first).toNat < (now - v.first).toNat) then some v else some w

/-- A CORRECTED outcome of a page entered in the watch table, or its count raised (R130). -/
def watchCount (s : State) (page : Nat) : State :=
  match s.integ.watch.find? fun w => decide (w.page = page) with
  | some w =>
    if 3 ≤ w.count then s.requestRetirement page
    else s.modInteg fun x =>
      { x with watch := x.watch.map fun v => if v.page = page then { v with count := v.count + 1, mark := true } else v }
  | none =>
    let entry : Watch := { page := page, count := 1, first := s.frame, mark := true }
    if s.integ.watch.length < 16 then s.modInteg fun x => { x with watch := x.watch ++ [entry] }
    else s.modInteg fun x =>
      { x with watch := (match watchVictim s.frame x.watch with
          | some v => x.watch.filter fun w => decide (w.page ≠ v.page)
          | none => x.watch) ++ [entry] }

/-- Whether the watch table follows a page: only ALLOCATED and FREE pages (R130). -/
def watchable (s : State) (page : Nat) : Bool :=
  match s.mem.page page with
  | .free _ | .allocated _ => true
  | _ => false

/-- A CORRECTED outcome counted in the watch table (R130), or a retirement requested again where one is owed (R141). -/
def countCorrected (s : State) (page : Nat) : State :=
  if page ∈ s.integ.owed then s.requestRetirement page
  else if s.migrating page ∨ page ∈ s.integ.counted ∨ s.watchable page = false then s
  else (s.modInteg fun x => { x with counted := page :: x.counted }).watchCount page

/-- The pass over an entry at the scrubber's visit: forgotten where nothing was corrected since the last pass, its mark
set to no otherwise (R131). -/
def watchPass (s : State) (page : Nat) : State :=
  s.modInteg fun x =>
    { x with watch := (x.watch.filter fun w => decide (w.page ≠ page) || w.mark).map fun w =>
        if w.page = page then { w with mark := false } else w }

/-! ## Outcomes of reads (R114, R115) -/

/-- A CORRECTED outcome of an audio, rescue or scrubber read: recorded, and counted (R114, R128, R129). The
record has the page and the slot (log entry 66). -/
def corrected (s : State) (page : Nat) : State :=
  let s := s.reportOwner (s.pageOwner page) .corrected (.corrected (s.pageSlot page) page)
  s.countCorrected page

/-- An UNCORRECTABLE outcome of a page in an OK bank (R115, R128): entered in the failure list, its retirement requested,
reported. -/
def uncorrectable (s : State) (page group : Nat) (rescued : Bool) : State :=
  let owner := s.pageOwner page
  let slot := s.pageSlot page
  let s := s.enterFailure page group
  let s := s.requestRetirement page
  s.reportOwner owner .uncorrectable (.uncorrectable slot page rescued)

/-! ## Migration (R135 to R138) -/

/-- The copy of the head of the migration queue starts in the present frame, or the head is marked owed where no spare
is found (R135). Nothing happens while a copy runs, with an empty queue, a second time in a frame, or for an entry
queued in this frame. -/
def startCopy (s : State) : State :=
  match s.integ.copy, s.integ.queue with
  | none, q :: rest =>
    if s.integ.copyTried ∨ q.since = s.frame then s else
      let s := s.modInteg fun x => { x with queue := rest, copyTried := true }
      match s.holderOf q.page with
      | none => s
      | some h =>
        match s.mem.takeSpare ((s.partner h).map pageBank) with
        | none => s.exhausted q.page
        | some (t, m) =>
          let s := { s with mem := m.setPage t (.target q.page) }
          s.modInteg fun x => { x with copy := some { source := q.page, target := t, holder := h, pos := 1 } }
  | _, _ => s

/-- A read of a page for a copy: where its retirement is owed, any outcome but CLEAN requests it again (R132, R141). -/
def askAgain (s : State) (page : Nat) (x : GroupOutcome) : State :=
  if x ≠ .clean ∧ page ∈ s.integ.owed then s.requestRetirement page else s

/-- The partner's group read for a copy, where the source's is UNCORRECTABLE: the page that can be copied from (R136). One
that cannot be read is not entered in a failure list, and it requests a retirement only where one is owed (log entry
68). -/
def readPartner (s : State) (faults : List GroupFault) (c : Copy) (group : Nat) : State × Option Nat :=
  match s.partner c.holder with
  | none => (s, none)
  | some p =>
    let x := s.outcome faults p group
    (s.askAgain p x, if x = .uncorrectable then none else some p)

/-- One group of the copy (R136). One that cannot be read is eight zeros in the target, also where the line wrote to it
since the copy started (log entry 59). The UNCORRECTABLE record has the slot, the source page and whether the partner's
group was used (log entry 70). -/
def copyOneGroup (s : State) (faults : List GroupFault) (c : Copy) (group : Nat) : State :=
  match s.outcome faults c.source group with
  | .clean | .corrected => s.modMem fun m => m.copyGroup c.source c.target group
  | .uncorrectable =>
    let read := s.readPartner faults c group
    let good := read.2
    let s := read.1.modMem fun m =>
      match good with
      | some p => m.copyGroup p c.target group
      | none => m.zeroGroup c.target group
    let s := s.enterFailure c.source group
    s.reportOwner (s.pageOwner c.source) .uncorrectable (.uncorrectable (some c.holder.slot) c.source good.isSome)

/-- The groups of the present copy frame, while the copy lasts: a bank failure may cancel it (R136, R139). The frame copies
them before its own reads and writes, so that the target keeps every sample the line writes (R136, log entry 53). -/
def copyFrame (s : State) (faults : List GroupFault) : State :=
  match s.integ.copy with
  | none => s
  | some c =>
    if 16 < c.pos then s else
      let s := (List.range 8).foldl (fun s k =>
        if s.integ.copy = some c then s.copyOneGroup faults c (8 * (c.pos - 1) + k) else s) s
      if s.integ.copy = some c then s.modInteg fun x => { x with copy := some { c with pos := c.pos + 1 } } else s

/-- The page at a position of a line's list replaced (R137). -/
def replacePage (s : State) (h : Holder) (page : Nat) : State :=
  s.modInst h.slot fun i =>
    { i with lines := i.lines.modify h.line fun l =>
        match h.list with
        | .primary => { l with pages := l.pages.set h.pos page }
        | .mirror => { l with mirrors := l.mirrors.set h.pos page } }

/-- The copy completes after copy frame 16 (R137). Its RETIRED record also says in which list the page stood (log entry
71). -/
def completeCopy (s : State) : State :=
  match s.integ.copy with
  | none => s
  | some c =>
    if c.pos ≤ 16 then s else
      let s := s.modMem fun m => m.setPage c.target (.allocated c.holder)
      let s := s.replacePage c.holder c.target
      let s := s.retirePage c.source
      let s := s.modInteg fun x => { x with copy := none }
      s.reportOwner (s.pageOwner c.target) .retired (.retired c.source (some (c.holder, c.target)))

/-- A page that is not under copy, in an OK bank, taken back: FREE and not clean (R112), and retired as a free page where
it was queued for migration (R134). -/
def takeBackPlain (s : State) (page : Nat) : State :=
  let queued := s.integ.queue.any fun q => decide (q.page = page)
  let s := s.modMem fun m => m.setPage page (.free false)
  if queued then
    (s.modInteg fun x => { x with queue := x.queue.filter fun q => decide (q.page ≠ page) }).retireFree page
  else s

/-- The source of the copy in progress taken back (R138): it is RETIRED, and the target FREE and not clean. -/
def takeBackSource (s : State) (c : Copy) : State :=
  let s := s.modMem fun m => m.setPage c.target (.free false)
  let s := s.modInteg fun x => { x with copy := none, copyTried := x.copyTried || !s.ending }
  (s.retirePage c.source).reportAll .retired (.retired c.source none)

/-- A page of an instance that becomes FREE is taken back (R112, R138); a page in a FAILED bank is WITHDRAWN, its marks
gone (R141). -/
def takeBackPage (s : State) (page : Nat) : State :=
  let s := s.modMem fun m => { m with priming := m.priming.filter fun q => decide (q.1 ≠ page) }
  if s.mem.bankFailed (pageBank page) then
    let s := s.modMem fun m => m.setPage page .withdrawn
    s.modInteg fun x => { x with owed := x.owed.erase page, reported := x.reported.erase page }
  else
    match s.integ.copy with
    | some c => if c.source = page then s.takeBackSource c else s.takeBackPlain page
    | none => s.takeBackPlain page

/-! ## The patrol scrubber (R126 to R129) -/

/-- Frames from one visit to the next (R126). -/
def scrubPeriod (s : State) : Nat := s.rate.pick 16 32

/-- The page whose visit falls in the present frame, if one does (R126). -/
def scrubPage (s : State) : Option Nat :=
  if s.frame.toNat % s.scrubPeriod = 0 then some (s.frame.toNat / s.scrubPeriod % 8192) else none

/-- One group of an ALLOCATED page at a visit (R128). A group restored from the partner is recorded as rescued, whichever of
the two is the mirror page (log entry 76); of two that are lost the page visited is handled first (log entry 77). -/
def scrubAllocated (s : State) (faults : List GroupFault) (h : Holder) (page group : Nat) : State :=
  match s.outcome faults page group with
  | .clean => s
  | .corrected => s.corrected page
  | .uncorrectable =>
    match s.partner h with
    | none => (s.modMem fun m => m.zeroGroup page group).uncorrectable page group false
    | some p =>
      match s.outcome faults p group with
      | .clean => (s.modMem fun m => m.copyGroup p page group).uncorrectable page group true
      | .corrected => ((s.modMem fun m => m.copyGroup p page group).uncorrectable page group true).corrected p
      | .uncorrectable =>
        let lost := s.mem.bankFailed (pageBank p)
        let s := s.modMem fun m => (m.zeroGroup page group).zeroGroup p group
        let s := s.uncorrectable page group false
        if lost then s else s.uncorrectable p group false

/-- One group of a clean FREE page at a visit (R129). -/
def scrubFree (s : State) (faults : List GroupFault) (page group : Nat) : State :=
  match s.outcome faults page group with
  | .clean => s
  | .corrected => s.corrected page
  | .uncorrectable => (s.modMem fun m => m.zeroGroup page group).uncorrectable page group false

/-- One group of a clean SPARE page at a visit (R129): the page is not counted and not retired, and an UNCORRECTABLE
group sends it to the end of the pool. -/
def scrubSpare (s : State) (faults : List GroupFault) (page group : Nat) : State :=
  match s.outcome faults page group with
  | .clean => s
  | .corrected => s.reportAll .corrected (.corrected none page)
  | .uncorrectable =>
    let s := (s.modMem fun m => m.zeroGroup page group).enterFailure page group
    let s := s.modMem fun m => { m with spares := if page ∈ m.spares then m.spares.erase page ++ [page] else m.spares }
    s.reportAll .uncorrectable (.uncorrectable none page false)

/-- All 128 groups of a page in order, as long as its bank is OK. -/
def scrubGroups (s : State) (page : Nat) (one : State → Nat → State) : State :=
  (List.range 128).foldl (fun s g => if s.mem.bankFailed (pageBank page) then s else one s g) s

/-- What a visit does to a page by its state (R127), in a bank that is OK; the pass over its watch entry is then due
where it was not passed over (R131). -/
def scrubPageVisit (s : State) (faults : List GroupFault) (page : Nat) : State :=
  let due (t : State) : State := t.modInteg fun x => { x with passDue := some page }
  match s.mem.page page with
  | .free false => due (s.modMem fun m => (m.zeroPage page).setPage page (.free true))
  | .spare false => due (s.modMem fun m => (m.zeroPage page).setPage page (.spare true))
  | .free true => due (s.scrubGroups page fun s g => s.scrubFree faults page g)
  | .spare true => due (s.scrubGroups page fun s g => s.scrubSpare faults page g)
  | .allocated h =>
    if s.mem.priming.any fun q => decide (q.1 = page) then s
    else due (s.scrubGroups page fun s g => s.scrubAllocated faults h page g)
  | .target _ | .retired | .withdrawn => s

/-- The visit of the present frame, taken once (R126). -/
def scrub (s : State) (faults : List GroupFault) : State :=
  match s.scrubPage with
  | none => s
  | some page =>
    if s.integ.visited then s else
      let s := s.modInteg fun x => { x with visited := true }
      if s.mem.bankFailed (pageBank page) then s else s.scrubPageVisit faults page

/-! ## The failure lists with time, and the nonvolatile list (R117, R140) -/

/-- An entry leaves its failure list at the end of the frame in which 48,000/96,000 frames have passed since it was made
(R117, log entry 16). -/
def expireFailure (s : State) (page group : Nat) : State :=
  match s.mem.banks[pageBank page]? with
  | none => s
  | some bk =>
    let old (f : Failure) : Bool :=
      decide (f.page = page) && decide (f.group = group) && decide (s.rate.hz < s.since f.frame)
    let bk' : Bank := { bk with failures := bk.failures.filter fun f => !old f }
    s.modMem fun m => { m with banks := m.banks.setIfInBounds (pageBank page) bk' }

/-- The append of the next entry starts where no append runs and an entry is not recorded (R140); after an unreadable
list the first append writes the whole list (R173). -/
def startAppend (s : State) : State :=
  let x := s.integ
  if x.append.isSome ∨ x.retired.length ≤ x.recorded then s
  else s.modInteg fun x =>
    { x with
      append := some
        { left := s.rate.pick 960 1920 - (if x.late then 1 else 0),
          upto := if nvReadable x.nv then x.recorded + 1 else x.retired.length }
      late := false }

/-- The append in progress completes when its frames have run (R140). -/
def completeAppend (s : State) : State :=
  match s.integ.append with
  | none => s
  | some a =>
    if 0 < a.left then s
    else s.modInteg fun x =>
      { x with append := none, recorded := a.upto, nv := { pages := x.retired.take a.upto, checkGood := true } }

end State

end Sys2Proof.Machine
end

