-- ==== Sys2Proof/Machine/Params.lean ====
section
/-! DEFINITION. The PARAMETER UNIT (chapter 4): ramps, dips, glides and crossfades, waiting changes, pending updates and
tempo retargets. A position (of a ramp, a crossfade or a dip) is that of the coming frame; one past the length waits for
the event that ends it (log entry 7). -/
namespace Sys2Proof.Machine

/-! ## Ramps (R51, R76, R77) -/

/-- The coefficient of a gain record expressed at the shift `e`, at least its own (R51). -/
def Val.atShift (v : Val) (e : Int) : Int := Int.tdiv v.m (2 ^ (e - v.e).toNat)

/-- The value at position `k` of a ramp of `n` frames (R76): on the straight line, at the larger shift of the two (R51),
and exactly the target at the end. -/
def rampValue (start target : Val) (n k : Nat) : Val :=
  if n ≤ k then target
  else
    let e := max start.e target.e
    { m := along (start.atShift e) (target.atShift e) k n, e := e }

/-- A ramp to a target over `n` frames, from the value of the frame before; at once where `n` is 0 (R76, R77). -/
def Param.rampTo (p : Param) (target : Val) (n : Nat) : Param :=
  if n = 0 then { p with value := target, target := target, ramp := none }
  else { p with value := rampValue p.prev target n 1, target := target,
                ramp := some { start := p.prev, len := n, pos := 1 } }

/-- A value taken at once, as a PRIMING instance takes it (R78). -/
def Param.jump (p : Param) (target : Val) : Param :=
  { p with prev := target, value := target, target := target, ramp := none, xfade := none, waiting := none }

/-- A time parameter whose delay in effect stays where it stands (R53, R89): a ramp ends at the value of the frame before,
a waiting change goes, and a crossfade, whose new head is the delay in effect, runs on (log entries 20 and 47). -/
def Param.stand (p : Param) : Param :=
  match p.ramp with
  | some _ => { p with value := p.prev, target := p.prev, ramp := none, waiting := none }
  | none => { p with waiting := none }

/-- The end of a parameter's ramp (R76). -/
def Param.endRamp (p : Param) : Param :=
  match p.ramp with
  | some g => if g.len < g.pos then { p with value := p.target, ramp := none } else p
  | none => p

/-- A parameter at the end of a frame: the frame's value kept, ramp and crossfade one position on (R76, R86). -/
def Param.advance (p : Param) : Param :=
  let p := { p with prev := p.value }
  let p := match p.ramp with
    | some g => { p with ramp := some { g with pos := g.pos + 1 }, value := rampValue g.start p.target g.len (g.pos + 1) }
    | none => p
  match p.xfade with
  | some x => { p with xfade := some { x with pos := x.pos + 1 } }
  | none => p

/-! ## Parameter records of an instance -/

namespace Inst

/-- The record of a parameter. -/
def param (i : Inst) (n : Nat) : Option Param := i.params.find? fun p => decide (p.num = n)

/-- The value in effect of a parameter; 0 for one the kind does not have. -/
def value (i : Inst) (n : Nat) : Int :=
  match i.param n with
  | some p => p.value.m
  | none => 0

/-- The record of a parameter changed. -/
def modParam (i : Inst) (n : Nat) (f : Param → Param) : Inst :=
  { i with params := i.params.map fun p => if p.num = n then f p else p }

/-! ## Dips (R82 to R84) -/

/-- Frames of a fall and of a rise (R82). -/
def dipLength (r : Rate) : Nat := r.pick 240 480

/-- A set of a dip record with the value of one parameter put in (R84). -/
def putValue (l : List (Nat × Int)) (n : Nat) (x : Int) : List (Nat × Int) :=
  if l.any fun c => decide (c.1 = n) then l.map fun c => if c.1 = n then (n, x) else c else l ++ [(n, x)]

/-- The switch of a dip whose last fall frame has run (R82). -/
def dipSwitch (r : Rate) (i : Inst) : Inst :=
  if i.dip.phase = .fall ∧ dipLength r < i.dip.pos then
    let j := i.dip.switch.foldl (fun j c => j.modParam c.1 fun p => p.jump { m := c.2, e := 0 }) i
    { j with dip := { i.dip with phase := .rise, pos := 1, switch := [] } }
  else i

/-- The end of a dip whose last rise frame has run: a new fall where the next set still changes something (R84). -/
def dipEnd (r : Rate) (i : Inst) : Inst :=
  if i.dip.phase = .rise ∧ dipLength r < i.dip.pos then
    let left := i.dip.next.filter fun c => decide (i.value c.1 ≠ c.2)
    { i with dip :=
        if left = [] then { phase := .none, pos := 0, switch := [], next := [] }
        else { phase := .fall, pos := 1, switch := left, next := [] } }
  else i

/-- A change of a DISCRETE parameter (R78, R83, R84), a dip whose frames have run being ended first. -/
def changeDiscrete (r : Rate) (i : Inst) (n : Nat) (x : Int) : Inst :=
  if i.state = .priming then i.modParam n fun p => p.jump { m := x, e := 0 }
  else
    let i := dipEnd r (dipSwitch r i)
    match i.dip.phase with
    | .none =>
      if i.value n = x then i else { i with dip := { phase := .fall, pos := 1, switch := [(n, x)], next := [] } }
    | .fall => { i with dip := { i.dip with switch := putValue i.dip.switch n x } }
    | .rise => { i with dip := { i.dip with next := putValue i.dip.next n x } }

/-! ## Delay times (R85 to R87) -/

/-- The value in effect of a DISCRETE parameter in the coming frame: that of the switch set where the last frame of the
fall has run, whether DIP_SWITCH has been taken or not (R82). -/
def discreteNow (r : Rate) (i : Inst) (n : Nat) : Int := (dipSwitch r i).value n

/-- Whether changes of a time parameter are made by crossfade now: PREDELAY always, TIME, TIME_L and TIME_R by the
CHANGE_MODE in effect, TIME_k and BASE_DELAY never (section 4.6, R59, R62, R82). -/
def crossfades (r : Rate) (i : Inst) : Bool :=
  match i.choice.kind with
  | .reverb => true
  | .delay | .pingpong => decide (i.discreteNow r 7 = 1)
  | .multitap | .chorus => false

/-- A delay change starts: a crossfade over `n` frames, or 480/960 where `n` is 0 (R86), or a glide (R85). -/
def startDelay (r : Rate) (i : Inst) (n : Nat) (target : Int) (frames : Nat) : Inst :=
  let v : Val := { m := target, e := 0 }
  if i.crossfades r then
    let len := if frames = 0 then r.pick 480 960 else frames
    i.modParam n fun p =>
      { p with value := v, target := v, ramp := none,
               xfade := some { old := p.prev.m, new := target, len := len, pos := 1 } }
  else i.modParam n fun p => p.rampTo v frames

/-- The end of a crossfade whose last frame has run; a waiting change starts (R86, R87). -/
def crossfadeEnd (r : Rate) (i : Inst) (n : Nat) : Inst :=
  match i.param n with
  | some { xfade := some x, waiting := w, .. } =>
    if x.len < x.pos then
      let j := i.modParam n fun p => { p with xfade := none, waiting := none }
      match w with
      | some c => startDelay r j n c.target c.ramp
      | none => j
    else i
  | _ => i

/-- The delay in effect of a time parameter stays where it stands (R53, R89). A crossfade whose last frame has run ends
first, as before any change. -/
def standDelay (r : Rate) (i : Inst) (n : Nat) : Inst := (crossfadeEnd r i n).modParam n Param.stand

/-- A change of a delay time to a target (R78, R85 to R87), and whether it became the waiting change. -/
def changeDelay (r : Rate) (i : Inst) (n : Nat) (target : Int) (frames : Nat) (retarget : Bool) : Inst × Bool :=
  if i.state = .priming then (i.modParam n fun p => p.jump { m := target, e := 0 }, false)
  else
    let i := crossfadeEnd r i n
    match i.param n with
    | some { xfade := some _, .. } =>
      (i.modParam n fun p => { p with waiting := some { target := target, ramp := frames, retarget := retarget } }, true)
    | _ => (startDelay r i n target frames, false)

/-! ## Changes (R75 to R80) -/

/-- A change of one parameter starts now, `frames` long, with the FPB of the linked clock if there is one; whether it
became a waiting change. A division without a link is stored, and the delay in effect stays where it stands (R53). -/
def startChange (r : Rate) (fpb : Option Nat) (i : Inst) (n : Nat) (v : Accepted) (frames : Nat) : Inst × Bool :=
  match paramSpec r i.choice n, v with
  | none, _ => (i, false)
  | some _, .gain g =>
    if i.state = .priming then (i.modParam n fun p => p.jump g, false) else (i.modParam n fun p => p.rampTo g frames, false)
  | some sp, .free x =>
    if sp.discrete then (changeDiscrete r i n x, false)
    else if sp.form.isTime then
      changeDelay r (i.modParam n fun p => { p with division := none }) n (keptValue r sp.form x) frames false
    else
      let t : Val := { m := x, e := 0 }
      let atOnce := decide (i.state = .priming) || ((i.param n).bind Param.division).isSome
      if atOnce then (i.modParam n fun p => { p.jump t with division := none }, false)
      else (i.modParam n fun p => p.rampTo t frames, false)
  | some sp, .division code =>
    if sp.form.isTime then
      let j := i.modParam n fun p => { p with division := some code }
      match fpb with
      | some b => changeDelay r j n (syncedDelay b code (largestDelay r sp) : Nat) frames false
      | none => (standDelay r j n, false)
    else (i.modParam n fun p => { p with division := some code, target := p.value, ramp := none }, false)

/-- Every pending update with one of the conditions takes effect, in list order (R80). -/
def applyUpdates (r : Rate) (fpb : Option Nat) (i : Inst) (conds : List Cond) : Inst :=
  let due := i.updates.filter fun u => decide (u.cond ∈ conds)
  let i := { i with updates := i.updates.filter fun u => decide (u.cond ∉ conds) }
  due.foldl (fun i u => (startChange r fpb i u.param u.value (r.ms u.ramp)).1) i

/-- A change of every synced time parameter, made from its number, its division and its specification. -/
def onSynced (r : Rate) (i : Inst) (change : Inst → Nat → Nat → PSpec → Inst) : Inst :=
  i.params.foldl (fun j p =>
    match p.division, paramSpec r i.choice p.num with
    | some code, some sp => if sp.form.isTime then change j p.num code sp else j
    | _, _ => j) i

/-- The synced time parameters retargeted to an FPB (R88, R89). -/
def retarget (r : Rate) (fpb : Nat) (i : Inst) : Inst :=
  i.onSynced r fun j n code sp =>
    (changeDelay r j n (syncedDelay fpb code (largestDelay r sp) : Nat) (r.ms (i.value 1).toNat) true).1

/-- The synced time parameters of an instance that loses its link: each delay in effect stays where it stands, and the
division stays stored (R89). -/
def standSynced (r : Rate) (i : Inst) : Inst := i.onSynced r fun j n _ _ => standDelay r j n

/-- The parameter records as the instance enters DRAINING or FADING (R72). A rise whose last frame has run has ended before,
so that the values of its next set may have begun a second dip, which runs on (R84). -/
def settleParams (r : Rate) (i : Inst) : Inst :=
  let i := dipEnd r i
  { i with
    updates := []
    params := i.params.map fun p =>
      match p.waiting with
      | some w => if w.retarget then p else { p with waiting := none }
      | none => p
    dip := { i.dip with next := [] } }

/-- An update put in the pending list: in place of the entry of its parameter, else at the end (R79). -/
def putUpdate (i : Inst) (u : Update) : Inst :=
  { i with updates :=
      if i.updates.any fun v => decide (v.param = u.param) then
        i.updates.map fun v => if v.param = u.param then u else v
      else i.updates ++ [u] }

/-- The pending update of a parameter removed (R77, R80). -/
def dropUpdate (i : Inst) (n : Nat) : Inst := { i with updates := i.updates.filter fun u => decide (u.param ≠ n) }

end Inst

/-! ## Oscillators that follow a clock (R41, R68) -/

/-- The number of the rate parameter that the oscillators of a kind follow (R55, R58, R68). -/
def rateParam : Kind → Nat
  | .reverb => 8
  | .delay => 6
  | _ => 5

/-- The division the oscillators of an instance follow, if they are synced (R41). -/
def lfoDivision (i : Inst) : Option Nat := (i.param (rateParam i.choice.kind)).bind Param.division

/-- Whether the EFFECT CORE runs an instance (R4). -/
def runs (i : Inst) : Bool := decide (i.state ∈ [.running, .held, .draining, .fading])

/-- The synced oscillators of an instance that runs see their clock's position move backward (R41, R101). -/
def Inst.turnBack (i : Inst) : Inst :=
  if runs i && (lfoDivision i).isSome then { i with oscs := i.oscs.map fun o => { o with moved := true } } else i

/-! ## Changes at the state -/

namespace State

/-- The FPB of the clock an instance is linked to. -/
def linkedFpb (s : State) (i : Inst) : Option Nat := i.link.bind fun k => (s.clock k).map Clock.fpb

/-- The pending updates of the instance in a slot with one of the conditions take effect (R80). -/
def applyUpdates (s : State) (slot : Nat) (conds : List Cond) : State :=
  s.modInst slot fun i => i.applyUpdates s.rate (s.linkedFpb i) conds

/-- The slots linked to a clock. -/
def linkedSlots (s : State) (clock : Nat) : List Nat :=
  allSlots.filter fun k => match s.inst k with | some i => decide (i.link = some clock) | none => false

/-- The synced time parameters of every instance linked to a clock retargeted (R88). -/
def retargetClock (s : State) (clock : Nat) : State :=
  match s.clock clock with
  | none => s
  | some c => (s.linkedSlots clock).foldl (fun s k => s.modInst k fun i => i.retarget s.rate c.fpb) s

/-! ## SET (R73, R74, R79, R80) -/

/-- Whether a condition cannot occur at an instance, so that a conditional SET acts at once (R80). -/
def cannotWait (i : Inst) : Cond → Bool
  | .now => false
  | .beat | .bar => i.link.isNone
  | .lfoZero => decide (oscCount i.choice = 0)

/-- Whether a change leaves the ramp it carries unused without a report: a DISCRETE parameter (R74), a division put on a
rate, or a rate whose division it removes (R75). For a conditional SET the division that the parameter holds when the
request is accepted decides (log entry 48). -/
def rampUnused (sp : PSpec) (i : Inst) (n : Nat) (v : Accepted) : Bool :=
  sp.discrete || (decide (sp.form = .rate) &&
    ((match v with | .division _ => true | _ => false) || ((i.param n).bind Param.division).isSome))

/-- The value of a SET as its reply gives it (R74). A division on a time parameter without a link gave no delay, so none is
given (R53, log entry 75). -/
def setValue (r : Rate) (sp : PSpec) (fpb : Option Nat) : Accepted → SetValue
  | .gain g => .gain g.m g.e
  | .free x => .free x
  | .division code =>
    .division code (if sp.form.isTime then fpb.map fun b => syncedDelay b code (largestDelay r sp) else none)

/-- An accepted SET of the instance in a slot (R74, R79, R80). The ramp of a DISCRETE parameter is not reported (R74).
A DISCRETE value that was clamped to the one in effect is answered CLAMPED (R74, R83, log entry 74). -/
def acceptSet (s : State) (slot : Nat) (i : Inst) (f : SetForm) (sp : PSpec) (cond : Cond) (v : Accepted)
    (names : List ClampName) : State × Ans :=
  let fpb := s.linkedFpb i
  let ramp := acceptRamp sp.minRamp f.ramp
  let names := names ++ if rampUnused sp i f.param v then [] else rampClamps sp f.ramp
  let body := ReplyBody.set (setValue s.rate sp fpb v) (if sp.discrete then none else some ramp)
  if cond = .now ∨ cannotWait i cond then
    let names := if cond = .now then names else names ++ [.condition]
    let r := (i.dropUpdate f.param).startChange s.rate fpb f.param v (s.rate.ms ramp)
    (s.setInst slot r.1,
      if r.2 then { status := .pending, reason := none, body := body names } else ansClamped names (body names))
  else
    (s.setInst slot (i.putUpdate { param := f.param, value := v, ramp := ramp, cond := cond }),
      { status := .pending, reason := none, body := body names })

/-- The checks 5 and 6 of R73, then the SET. -/
def checkSet (s : State) (slot : Nat) (i : Inst) (f : SetForm) (cond : Cond) : State × Ans :=
  match paramSpec s.rate i.choice f.param with
  | none => s.refuse .badArgument
  | some sp =>
    match acceptValue s.rate sp (s.linkedFpb i) f.value with
    | none => s.refuse .badArgument
    | some (v, names) =>
      if cond ≠ .now ∧ 8 ≤ i.updates.length ∧ i.updates.all (fun u => decide (u.param ≠ f.param)) then
        s.refuse .pendingFull
      else s.acceptSet slot i f sp cond v names

/-- SET (R73). -/
def setRequest (s : State) (p : Port) (slot : Nat) (f : SetForm) : State × Ans :=
  match f.cond with
  | .absent | .unknown => s.refuse .badArgument
  | .is cond =>
    if 31 < slot ∨ 31 < f.param ∨ valueFormOk f.param f.value = false then s.refuse .badArgument
    else
      match s.inst slot with
      | none => s.refuse .badState
      | some i =>
        if i.owner ≠ p ∧ i.shared = false then s.refuse .notOwner
        else if i.state ∉ [.priming, .running, .held] then s.refuse .badState
        else s.checkSet slot i f cond

end State

end Sys2Proof.Machine
end

