-- ==== Sys2Proof/Machine/Lanes.lean ====
section
/-! DEFINITION. The LANE INTERFACE's paths and claims (chapter 9): the gains of sends and routes, the output claim table,
and the requests that set them. -/
namespace Sys2Proof.Machine

/-! ## Gains of sends and routes (R160, R161, R164) -/

/-- The frames of the fixed ramps of sends and routes (R8, R10, R161, R164). -/
def pathRamp (r : Rate) : Nat := r.pick 480 960

namespace Path

/-- The gain in effect in the frame before. -/
def before (x : Path) : Int :=
  match x.ramp with
  | some g => along g.start g.target (min (g.pos - 1) g.len) g.len
  | none => x.gain

/-- A ramp of the gain in effect to a target over `n` frames, 1 or more (R160). -/
def rampTo (x : Path) (target : Int) (n : Nat) : Path :=
  { x with gain := along x.before target 1 n, ramp := some { start := x.before, target := target, len := n, pos := 1 } }

/-- The gain in effect set at once. -/
def jump (x : Path) (g : Int) : Path := { x with gain := g, ramp := none }

/-- A live path becomes departing: its gain in effect ramps to zero (R161, R164). -/
def depart (r : Rate) (x : Path) : Path :=
  if x.departing then x else { x.rampTo 0 (pathRamp r) with departing := true }

/-- A path at the end of a frame: its ramp one position on. -/
def advance (x : Path) : Path :=
  match x.ramp with
  | some g =>
    { x with gain := along g.start g.target (min (g.pos + 1) g.len) g.len, ramp := some { g with pos := g.pos + 1 } }
  | none => x

/-- Whether the last frame of the path's ramp has run. -/
def ran (x : Path) : Bool :=
  match x.ramp with
  | some g => decide (g.len < g.pos)
  | none => false

/-- The end of a live path's ramp (R76). -/
def endRamp (x : Path) : Path := if x.ran && !x.departing then { x with ramp := none } else x

/-- A live path that starts at gain in effect zero. -/
def start (chan : Nat) (setGain : Int) : Path :=
  { chan := chan, setGain := setGain, gain := 0, ramp := none, departing := false }

end Path

/-- The ramps that a state change starts act on live sends: to the set gains, or to zero (R160). -/
def Inst.rampSends (i : Inst) (up : Bool) (n : Nat) : Inst :=
  { i with sends := i.sends.map fun o => o.map fun x =>
      if x.departing then x else x.rampTo (if up then x.setGain else 0) n }

/-- The routes of one output. -/
def Inst.routes (i : Inst) : Side → Vector (Option Path) 2
  | .left => i.left
  | .right => i.right

/-- The routes of one output replaced. -/
def Inst.setRoutes (i : Inst) (side : Side) (v : Vector (Option Path) 2) : Inst :=
  match side with
  | .left => { i with left := v }
  | .right => { i with right := v }

/-- Every route of an instance changed. -/
def Inst.mapRoutes (i : Inst) (f : Path → Path) : Inst :=
  { i with left := i.left.map (Option.map f), right := i.right.map (Option.map f) }

/-- The routes of an instance, live and departing, of both outputs. -/
def Inst.allRoutes (i : Inst) : List Path := (i.left.toList ++ i.right.toList).filterMap id

namespace State

/-! ## The claim table (R162, R163) -/

/-- The entry of a channel; none out of range (R156, R162). -/
def claim (s : State) (chan : Nat) : Option Claim := if chan < channelCount s.rate then s.lanes.claims[chan]? else none

/-- The entry of a channel replaced. -/
def setClaim (s : State) (chan : Nat) (c : Claim) : State :=
  { s with lanes := { s.lanes with claims := s.lanes.claims.setIfInBounds chan c } }

/-- Whether port `p` holds a channel: CLAIMED by it (R164). -/
def holds (s : State) (p : Port) (chan : Nat) : Bool :=
  match s.claim chan with
  | some c => decide (c.state = .claimed ∧ c.owner = some p)
  | none => false

/-- The routes to a channel over all instances. -/
def routesTo (s : State) (chan : Nat) : List Path :=
  allSlots.flatMap fun k =>
    match s.inst k with
    | some i => i.allRoutes.filter fun x => decide (x.chan = chan)
    | none => []

/-- The channel report (R162). -/
def channelReport (s : State) (chan : Nat) (c : Claim) : ChannelReport :=
  { state := c.state, owner := c.owner, clips := c.clips, live := (s.routesTo chan).countP fun x => !x.departing,
    departing := (s.routesTo chan).countP fun x => x.departing, wordClock := s.lanes.wordClock,
    clockGate := s.lanes.gate, lanes := s.lanes.inputs.toList.map fun l => (l.synced, l.gate) }

/-- A refusal that carries the channel report where the channel is in range (R162). -/
def refuseChannel (s : State) (r : Reason) (chan : Nat) : State × Ans :=
  match s.claim chan with
  | some c => (s, ansRefusedWith r (.channel (s.channelReport chan c)))
  | none => (s, ansRefused r)

/-- DONE with the channel report after the request has acted (R162). -/
def doneChannel (s : State) (chan : Nat) : State × Ans :=
  match s.claim chan with
  | some c => (s, ansDone (.channel (s.channelReport chan c)))
  | none => (s, ansRefused .badArgument)

/-- CLAIM_OUTPUT (R162). -/
def claimRequest (s : State) (p : Port) (chan : Nat) (mode : Field ClaimMode) : State × Ans :=
  match s.claim chan, mode with
  | none, _ => s.refuse .badArgument
  | some _, .absent | some _, .unknown => s.refuseChannel .badArgument chan
  | some _, .is .read => s.doneChannel chan
  | some c, .is .claim =>
    match c.state with
    | .free => (s.setClaim chan { state := .claimed, owner := some p, clips := 0 }).doneChannel chan
    | .claimed => if c.owner = some p then s.doneChannel chan else s.refuseChannel .claimed chan
    | .releasing => if c.owner = some p then s.refuseChannel .badState chan else s.refuseChannel .claimed chan

/-- A RELEASING channel that no route targets any more is FREE (R163). -/
def freeChannel (s : State) (chan : Nat) : State :=
  match s.claim chan with
  | some c => if c.state = .releasing ∧ s.routesTo chan = [] then s.setClaim chan { c with state := .free, owner := none } else s
  | none => s

/-- Every RELEASING channel that no route targets any more is FREE (R163). -/
def freeChannels (s : State) : State := (List.range 64).foldl freeChannel s

/-- Every instance of a port changed. -/
def modOwned (s : State) (p : Port) (f : Inst → Inst) : State :=
  allSlots.foldl (fun s k => s.modInst k fun i => if i.owner = p then f i else i) s

/-- A channel CLAIMED by port `p` released: its live routes depart, and it is RELEASING, or FREE where no route is left
(R163). -/
def releaseChannel (s : State) (p : Port) (chan : Nat) : State :=
  let s := s.modOwned p fun i => i.mapRoutes fun x => if x.chan = chan then x.depart s.rate else x
  match s.claim chan with
  | some c => (s.setClaim chan { c with state := .releasing }).freeChannel chan
  | none => s

/-- RELEASE_OUTPUT (R163). -/
def releaseOutputRequest (s : State) (p : Port) (chan : Nat) : State × Ans :=
  match s.claim chan with
  | none => s.refuse .badArgument
  | some c =>
    if c.state = .free ∨ c.owner ≠ some p then s.refuse .notClaimed
    else if c.state = .releasing then s.doneChannel chan
    else (s.releaseChannel p chan).doneChannel chan

/-! ## Requests on sends (R161) -/

/-- A ramp of a send or a route held to 10 to 5,000 ms (R161). -/
def pathRampMs (ramp : Nat) : Nat := clampNat 10 5000 ramp

/-- The clamp of such a ramp, as the reply names it (R161). -/
def pathRampNames (ramp : Nat) : List ClampName := if pathRampMs ramp = ramp then [] else [.ramp]

/-- A new set gain taken by a live send (R161). -/
def setSend (r : Rate) (i : Inst) (pos : Nat) (x : Path) (gain : Int) (ramp : Nat) : Inst :=
  let x := { x with setGain := gain }
  let x := if i.state = .running then x.rampTo gain (r.ms (pathRampMs ramp)) else x
  { i with sends := i.sends.setIfInBounds pos (some x) }

/-- SEND_SET (R161). -/
def sendSetRequest (s : State) (p : Port) (slot pos chan : Nat) (gain : Int) (ramp : Nat) : State × Ans :=
  s.asOwner p slot (decide (pos ≤ 3) && decide (chan < channelCount s.rate) && coefOk gain) [.priming, .running, .held]
    fun i =>
      match (i.sends[pos]?).join with
      | none =>
        (s.setInst slot (setSend s.rate i pos (.start chan gain) gain ramp),
          ansClamped (pathRampNames ramp) (.clamped (pathRampNames ramp)))
      | some x =>
        if x.departing ∨ x.chan ≠ chan then s.refuse .badState
        else (s.setInst slot (setSend s.rate i pos x gain ramp),
          ansClamped (pathRampNames ramp) (.clamped (pathRampNames ramp)))

/-- SEND_CLEAR (R161). -/
def sendClearRequest (s : State) (p : Port) (slot pos : Nat) : State × Ans :=
  s.asOwner p slot (decide (pos ≤ 3)) [.priming, .running, .held] fun i =>
    match (i.sends[pos]?).join with
    | none => (s, ansDone .empty)
    | some x =>
      let x' := if i.state = .priming then none else some (x.depart s.rate)
      if x.departing then (s, ansDone .empty)
      else (s.setInst slot { i with sends := i.sends.setIfInBounds pos x' }, ansDone .empty)

/-! ## Requests on routes (R164) -/

/-- The states in which a route may be set or cleared: all but FREE and WAITING (R164). -/
def routeStates : List InstState := [.priming, .running, .held, .draining, .fading]

/-- A new set gain taken by a route (R164). -/
def setRoute (r : Rate) (i : Inst) (side : Side) (pos : Nat) (x : Path) (gain : Int) (ramp : Nat) : Inst :=
  let x := { x with setGain := gain }
  let x := if i.state = .priming then x.jump gain else x.rampTo gain (r.ms (pathRampMs ramp))
  i.setRoutes side ((i.routes side).setIfInBounds pos (some x))

/-- The checks 1 to 3 of R164 for a route to a channel, then the setting. -/
def placeRoute (s : State) (slot : Nat) (i : Inst) (side : Side) (pos chan : Nat) (gain : Int) (ramp : Nat) : State × Ans :=
  let here := ((i.routes side)[pos]?).join
  let other := ((i.routes side)[1 - pos]?).join
  let blocked := match here with | some x => x.departing || decide (x.chan ≠ chan) | none => false
  let doubled := match other with | some x => decide (x.chan = chan) | none => false
  let x := match here with | some x => x | none => Path.start chan gain
  if s.holds i.owner chan = false then s.refuse .notClaimed
  else if blocked then s.refuse .badState
  else if doubled then s.refuse .badArgument
  else (s.setInst slot (setRoute s.rate i side pos x gain ramp),
    ansClamped (pathRampNames ramp) (.clamped (pathRampNames ramp)))

/-- ROUTE_SET (R164). -/
def routeSetRequest (s : State) (p : Port) (slot : Nat) (out : Field Side) (pos chan : Nat) (gain : Int) (ramp : Nat) :
    State × Ans :=
  match out with
  | .absent | .unknown => s.refuse .badArgument
  | .is side =>
    s.asOwner p slot (decide (pos ≤ 1) && decide (chan < channelCount s.rate) && coefOk gain) routeStates fun i =>
      s.placeRoute slot i side pos chan gain ramp

/-- ROUTE_CLEAR (R164). -/
def routeClearRequest (s : State) (p : Port) (slot : Nat) (out : Field Side) (pos : Nat) : State × Ans :=
  match out with
  | .absent | .unknown => s.refuse .badArgument
  | .is side =>
    s.asOwner p slot (decide (pos ≤ 1)) routeStates fun i =>
      match ((i.routes side)[pos]?).join with
      | none => (s, ansDone .empty)
      | some x =>
        let x' := if i.state = .priming then none else some (x.depart s.rate)
        if x.departing then (s, ansDone .empty)
        else (s.setInst slot (i.setRoutes side ((i.routes side).setIfInBounds pos x')), ansDone .empty)

/-! ## Departed paths (R161, R164) -/

/-- A departing send whose ramp has ended is emptied (R161). -/
def sendDeparted (s : State) (slot pos : Nat) : State :=
  s.modInst slot fun i =>
    match (i.sends[pos]?).join with
    | some x => if x.departing && x.ran then { i with sends := i.sends.setIfInBounds pos none } else i
    | none => i

/-- A departing route whose ramp has ended is emptied, and its channel is FREE where it was RELEASING and no route is left
(R163, R164). -/
def routeDeparted (s : State) (slot : Nat) (side : Side) (pos : Nat) : State :=
  match s.inst slot with
  | none => s
  | some i =>
    match ((i.routes side)[pos]?).join with
    | some x =>
      if x.departing && x.ran then
        (s.setInst slot (i.setRoutes side ((i.routes side).setIfInBounds pos none))).freeChannel x.chan
      else s
    | none => s

/-! ## Lane and word-clock state changes (R157, R158) -/

/-- An input lane with a bad run of 4 is LOST (R157). -/
def loseLane (s : State) (k : Nat) : State :=
  match s.lanes.inputs[k]? with
  | some l =>
    if l.synced && decide (4 ≤ l.badRun) then
      let l' : Lane := { l with synced := false, gate := 0, goodRun := 0 }
      { s with lanes := { s.lanes with inputs := s.lanes.inputs.setIfInBounds k l' } }.reportAll .laneLost (.laneLost k)
    else s
  | none => s

/-- A LOST lane with a good run of 256 is SYNCED (R157). -/
def syncLane (s : State) (k : Nat) : State :=
  match s.lanes.inputs[k]? with
  | some l =>
    if !l.synced && decide (256 ≤ l.goodRun) then
      let l' : Lane := { l with synced := true, badRun := 0 }
      { s with lanes := { s.lanes with inputs := s.lanes.inputs.setIfInBounds k l' } }.raiseAll .clock (.laneSynced k)
    else s
  | none => s

/-- A bad run of 4 in LOCKED enters HOLDOVER (R158). -/
def loseClock (s : State) : State :=
  if s.lanes.wordClock = .locked ∧ 4 ≤ s.lanes.bad then
    { s with lanes := { s.lanes with wordClock := .holdover, good := 0 } }.reportAll .clockLost .clockLost
  else s

/-- A good count of 4,096 enters LOCKED (R158). -/
def lockClock (s : State) : State :=
  if s.lanes.wordClock ≠ .locked ∧ 4096 ≤ s.lanes.good then
    { s with lanes := { s.lanes with wordClock := .locked, bad := 0 } }.raiseAll .clock .locked
  else s

end State

end Sys2Proof.Machine
end

