-- ==== Sys2Proof/Machine/Life.lean ====
section
/-! DEFINITION. The INSTANCE MANAGER (chapter 1): records set up and freed, priming, drains, fades and offers, with the part
of the TRANSITION UNIT that a release reaches: waiting instances admitted and records settled (R122, R151, R152). -/
namespace Sys2Proof.Machine

/-! ## A new record (R7, R9) -/

/-- The decay gains of a REVERB at a DECAY and a SIZE (R39); none for another kind. -/
def decayOf (r : Rate) (c : Choice) (decay size : Int) : Decay :=
  { decay := decay, size := size,
    gains :=
      if c.kind = .reverb then
        ((reverbLengths c.variant).drop 4).map fun l => decayGain r (sizedLength r l size.toNat) decay.toNat
      else [] }

/-- A record made in the frame `now` that holds no lines and no charge, as a WAITING instance does (R9); `setUp` gives it
the rest. -/
def newInst (owner : Port) (c : Choice) (drain : Nat) (tag : Option Nat) (ramp : Nat) (now : FrameNo) : Inst :=
  { state := .waiting, owner := owner, shared := false, choice := c, lines := [], link := none, drainLimit := drain,
    drainStart := 0, tag := tag, offer := none, saturation := 0, poison := 0, pages := 0, units := 0, entered := now,
    primed := false, primeRamp := ramp, kept := none, quiet := 0, fade := 0, byLimit := false, ret := 0, oscs := [],
    decay := { decay := 0, size := 0, gains := [] }, env := { phase := .clear, step := 0, heldL := 0, heldR := 0 },
    outL := 0, outR := 0, poisoned := false, params := [], updates := [],
    dip := { phase := .none, pos := 0, switch := [], next := [] }, sends := Vector.replicate 4 none,
    left := Vector.replicate 2 none, right := Vector.replicate 2 none }

/-- The record of an instance whose charge is admitted in the frame `now`, with the lines it was given (R7, R72). -/
def primedInst (r : Rate) (base : Inst) (lines : List Line) (now : FrameNo) : Inst :=
  let params := defaultParams r base.choice
  let value (n : Nat) : Int := match params.find? fun p => decide (p.num = n) with | some p => p.value.m | none => 0
  { base with
    state := .priming, entered := now, lines := lines, pages := pagesNeeded r base.choice, units := unitsNeeded base.choice,
    params := params
    oscs := List.replicate (oscCount base.choice) { phase := 0, last := 0, wrapped := false, moved := false, acted := false }
    decay := decayOf r base.choice (value 2) (value 3), kept := none }

namespace State

/-! ## Priming (R8, R116) -/

/-- The first `n` pages of the priming queue cleared, a page of a FAILED bank without a write (R116). -/
def clearPages (n : Nat) (m : DelayMem) : DelayMem :=
  let k := min n m.priming.length
  let m' := (m.priming.take n).foldl (fun m q => if m.bankFailed (pageBank q.1) then m else m.zeroPage q.1) m
  { m' with priming := m.priming.drop n, clearLeft := n - k }

/-- A PRIMING instance with no page left in the queue has primed (R8). -/
def markSlot (s : State) (k : Nat) : State :=
  s.modInst k fun i =>
    if i.state = .priming ∧ s.mem.priming.all (fun q => decide (q.2 ≠ k)) then { i with primed := true } else i

/-- Every PRIMING instance with no page left in the queue has primed (R8). -/
def markPrimed (s : State) : State := allSlots.foldl markSlot s

/-- The clearing at the end of a frame, of `n` pages at most (R116). -/
def pageClear (s : State) (n : Nat) : State := (s.modMem (clearPages n)).markPrimed

/-- The frame in which an instance is admitted. A step of the last frame's end admits it in that frame, but for one that
went WAITING in the present frame, after that end (log entry 15). -/
def admissionFrame (s : State) (base : Inst) : FrameNo :=
  if s.ending = true ∧ base.entered = s.frame + 1 then s.frame + 1 else s.frame

/-- The dirty pages of an instance admitted at the last frame's end: queued before those of the instances that have
entered PRIMING in the present frame, and cleared with what is left of that end's four (R116, log entry 15). -/
def queueAtEnd (s : State) (dirty : List (Nat × Nat)) (m : DelayMem) : DelayMem :=
  let before (q : Nat × Nat) : Bool := (s.inst q.2).all fun i => decide (i.entered ≠ s.frame + 1)
  let cleared := clearPages m.clearLeft { m with priming := m.priming.takeWhile before ++ dirty }
  { cleared with priming := cleared.priming ++ m.priming.dropWhile before }

/-- An instance whose charge is admitted: charged, given its pages, loaded with defaults and PRIMING (R7). Where this
happens at a frame's end, that end's clearing goes on with it, and no other instance is primed by it (R116, log entry
15). -/
def setUp (s : State) (slot : Nat) (base : Inst) : State :=
  let c := base.choice
  let now := s.admissionFrame base
  let atEnd := s.ending && decide (now = s.frame)
  let g := DelayMem.giveLines slot c.mirror 0 (lineCapacities s.rate c) s.mem
  let dirty := g.2.2.map fun p => (p, slot)
  let mem := if atEnd then s.queueAtEnd dirty g.1 else { g.1 with priming := g.1.priming ++ dirty }
  let s := { s with mem := mem, alloc := s.alloc.charge base.owner (pagesNeeded s.rate c) (unitsNeeded c) }
  let s := s.setInst slot (primedInst s.rate base g.2.1 now)
  if atEnd then s.markSlot slot else s

/-! ## Links (R102, R103) -/

/-- The linked count of a port on a clock changed. -/
def countLink (s : State) (clock : Nat) (p : Port) (f : Nat → Nat) : State :=
  s.modClock clock fun c => { c with linked := c.linked.set p (f (c.linked.get p)) }

/-- The link of an instance set to a clock: counts follow, and its synced time parameters are retargeted (R89, R103). -/
def linkTo (s : State) (slot : Nat) (i : Inst) (clock : Nat) : State :=
  let s := match i.link with | some k => s.countLink k i.owner (· - 1) | none => s
  let s := s.countLink clock i.owner (· + 1)
  let i := { i with link := some clock }
  match s.clock clock with
  | some c => s.setInst slot (i.retarget s.rate c.fpb)
  | none => s.setInst slot i

/-- The link of an instance removed: the delays in effect of its synced time parameters stay where they stand, then its
BEAT and BAR updates take effect (R81, R89, R103; log entry 47). A division that one of them carries finds no link (log
entry 46). -/
def unlink (s : State) (slot : Nat) (i : Inst) : State :=
  match i.link with
  | none => s
  | some k =>
    ((s.countLink k i.owner (· - 1)).setInst slot { i.standSynced s.rate with link := none }).applyUpdates slot
      [.beat, .bar]

/-! ## Transition records that settle (R152) -/

/-- How many items of a record have each result (R152). -/
def itemCounts (l : List RecordItem) : ItemCounts :=
  let n (r : ItemResult) : Nat := l.countP fun x => decide (x.result = some r)
  { ok := n .ok, clamped := n .clamped, failedNoPages := n .failedNoPages, failedNoUnits := n .failedNoUnits,
    cancelled := n .cancelled }

/-- The members of a port's transition: its instances with the record's tag (R146). -/
def members (s : State) (p : Port) (number : Nat) : List Nat :=
  allSlots.filter fun k =>
    match s.inst k with
    | some i => decide (i.owner = p ∧ i.tag = some number)
    | none => false

/-- Whether an instance is PRIMING or WAITING. -/
def unsettled (s : State) (slot : Nat) : Bool :=
  match s.inst slot with
  | some i => decide (i.state = .priming ∨ i.state = .waiting)
  | none => false

/-- The tags of a port's transition removed (R146). -/
def dropTags (s : State) (p : Port) (number : Nat) : State :=
  (s.members p number).foldl (fun s k => s.modInst k fun i => { i with tag := none }) s

/-- A SETTLING record with no member PRIMING or WAITING settles (R152). -/
def settleTest (s : State) (p : Port) : State :=
  match (s.rc p).record with
  | none => s
  | some r =>
    if r.state = .settling ∧ (s.members p r.number).all (fun k => !s.unsettled k) then
      let counts := itemCounts r.items
      let st := if counts.failedNoPages + counts.failedNoUnits + counts.cancelled = 0 then RecordState.settled else .failed
      let s := (s.modRecord p fun r => { r with state := st }).dropTags p r.number
      s.raise p .transition (.transition r.number st counts)
    else s

/-- The result of an item of a port's record (R146). -/
def setResult (s : State) (p : Port) (item : Nat) (x : ItemResult) : State :=
  s.modRecord p fun r => { r with items := r.items.modify item fun y => { y with result := some x } }

/-! ## Recall items set up (R149, R151) -/

/-- The parameter values of a recall item applied at once to a PRIMING instance, and whether any was clamped (R149). -/
def applyValues (r : Rate) (fpb : Option Nat) (i : Inst) (l : List (Nat × ValueForm)) : Inst × Bool :=
  l.foldl (fun acc c =>
    match paramSpec r i.choice c.1 with
    | none => acc
    | some sp =>
      match acceptValue r sp fpb c.2 with
      | none => acc
      | some (v, names) => ((acc.1.startChange r none c.1 v 0).1, acc.2 || decide (names ≠ []))) (i, false)

/-- The routes of one output of a recall item, each at its set gain at once where the owner holds its channel (R166), and
whether any was left out. A second route to one channel is left out (R164, log entry 22). -/
def keptRoutes (s : State) (p : Port) (l : List KeptPath) : Vector (Option Path) 2 × Bool :=
  l.foldl (fun acc k =>
    if s.holds p k.chan && (acc.1.toList.filterMap id).all fun x => decide (x.chan ≠ k.chan) then
      (acc.1.setIfInBounds k.pos (some ((Path.start k.chan k.gain).jump k.gain)), acc.2)
    else (acc.1, true)) (Vector.replicate 2 none, false)

/-- What a recall gives an instance just set up: parameters, link, sends, routes (R149 steps 2 to 5), and whether any was
clamped or left out. -/
def applyKept (s : State) (slot : Nat) (k : Kept) : State × Bool :=
  match s.inst slot with
  | none => (s, false)
  | some i =>
    let fpb := k.link.bind fun n => (s.clock n).map Clock.fpb
    let v := applyValues s.rate fpb i k.params
    let left := s.keptRoutes i.owner k.left
    let right := s.keptRoutes i.owner k.right
    let sends := k.sends.foldl (fun a x => a.setIfInBounds x.pos (some (Path.start x.chan x.gain))) i.sends
    let j := { v.1 with sends := sends, left := left.1, right := right.1 }
    let s := match k.link with | some n => s.linkTo slot j n | none => s.setInst slot j
    (s, k.clamped || v.2 || left.2 || right.2)

/-- A recall item whose charge is admitted: set up, and its result decided (R149, R151). -/
def setUpItem (s : State) (slot : Nat) (base : Inst) (k : Kept) : State :=
  let x := (s.setUp slot base).applyKept slot k
  x.1.setResult base.owner k.item (if x.2 then .clamped else .ok)

/-! ## The waiting list (R122, R151) -/

/-- One waiting instance offered what is free (R122): set up where its charge is admitted, else its latest refusal
kept. -/
def offerSlot (s : State) (slot : Nat) : State :=
  match s.inst slot with
  | some i =>
    match i.state, i.kept with
    | .waiting, some k =>
      match s.chargeTest i.owner i.choice with
      | none =>
        let s := { s with alloc := { s.alloc with waiting := s.alloc.waiting.erase slot } }
        (s.setUpItem slot i k).settleTest i.owner
      | some why => s.setInst slot { i with kept := some { k with noPages := decide (why = .noPages) } }
    | _, _ => s
  | none => s

/-- Freed resources offered to the waiting list, in list order (R122). -/
def offerResources (s : State) : State := s.alloc.waiting.foldl offerSlot s

/-- A WAITING instance becomes FREE: it held nothing (R17), and leaves the waiting list (R122). -/
def freeWaiting (s : State) (slot : Nat) : State :=
  { s.clearSlot slot with alloc := { s.alloc with waiting := s.alloc.waiting.erase slot } }

/-! ## An instance becomes FREE (R17) -/

/-- Every page of an instance: line by line, the primary list and then the mirror list. In this order they are taken back
(R112, log entry 58). -/
def instPages (i : Inst) : List Nat := i.lines.flatMap fun l => l.pages ++ l.mirrors

/-- An instance becomes FREE from PRIMING, DRAINING or FADING (R17); `why` is the reason its notice gives, none for a
release from PRIMING. -/
def freeInst (s : State) (slot : Nat) (i : Inst) (why : Option FreeReason) : State :=
  let s := (instPages i).foldl takeBackPage s
  let s := { s with alloc := s.alloc.uncharge i.owner i.pages i.units }
  let s := match i.link with | some k => s.countLink k i.owner (· - 1) | none => s
  let s := s.clearSlot slot
  let s := if s.ending then s.freeChannels else s
  let s := match why with | some w => s.raise i.owner .inst (.freed slot w) | none => s
  s.offerResources.settleTest i.owner

/-! ## Offers (R19 to R22) -/

/-- A standing offer cancelled, with notices at giver and target where their links are UP; `clearing` is the port whose own
port clear caused it (R22). -/
def cancelOffer (s : State) (slot : Nat) (i : Inst) (clearing : Option Port) : State :=
  match i.offer with
  | none => s
  | some o =>
    let tell (s : State) (p : Port) : State :=
      if clearing = some p then s else s.raiseUp p .handover (.cancelled slot)
    tell (tell (s.setInst slot { i with offer := none }) i.owner) o.target

/-- Every offer in which a port is giver or target cancelled (R22), by rising slot (log entry 55). -/
def cancelOffers (s : State) (p : Port) (clearing : Option Port) : State :=
  allSlots.foldl (fun s k =>
    match s.inst k with
    | some i =>
      match i.offer with
      | some o => if i.owner = p ∨ o.target = p then s.cancelOffer k i clearing else s
      | none => s
    | none => s) s

/-! ## Drains and fades (R13, R16) -/

/-- The return from HELD that leaving it starts; one under way runs on (R13, R16). -/
def leaveHeld (i : Inst) : Nat := if i.state = .held then 1 else i.ret

/-- A RUNNING or HELD instance enters DRAINING, its sends to zero over `n` frames (R13). -/
def enterDraining (s : State) (slot : Nat) (i : Inst) (n : Nat) : State :=
  let j := { (i.settleParams s.rate).rampSends false n with
    state := .draining, drainStart := s.frame, quiet := 0, ret := leaveHeld i }
  (s.setInst slot j).cancelOffer slot j none

/-- A RUNNING, HELD or DRAINING instance enters FADING, its sends to zero over `n` frames (R16). -/
def enterFading (s : State) (slot : Nat) (i : Inst) (n : Nat) (byLimit : Bool) (clearing : Option Port) : State :=
  let j := { (i.settleParams s.rate).rampSends false n with
    state := .fading, drainStart := if i.state = .draining then i.drainStart else s.frame, fade := 1,
    byLimit := byLimit, ret := leaveHeld i }
  (s.setInst slot j).cancelOffer slot j clearing

/-- A release in a mode by the state of the instance (R12), the sends over `n` frames. -/
def release (s : State) (slot : Nat) (i : Inst) (mode : RelMode) (n : Nat) : State :=
  match i.state, mode with
  | .priming, _ => s.freeInst slot i none
  | .running, .tail | .held, .tail => s.enterDraining slot i n
  | .running, .cut | .held, .cut | .draining, .cut => s.enterFading slot i n false none
  | _, _ => s

/-! ## Life-cycle events (R8, R14, R15, R16, R21) -/

/-- Frames of a fade (R16). -/
def fadeLength (r : Rate) : Nat := r.pick 2400 4800

/-- An instance whose last dirty page has been cleared leaves PRIMING for RUNNING (R8). -/
def instancePrimed (s : State) (slot : Nat) : State :=
  match s.inst slot with
  | some i =>
    if i.state = .priming ∧ i.primed = true then
      let s := s.setInst slot { i.rampSends true i.primeRamp with state := .running }
      (s.raise i.owner .inst (.primed slot)).settleTest i.owner
    else s
  | none => s

/-- A DRAINING instance whose quiet run is complete becomes FREE (R14). -/
def drainQuiet (s : State) (slot : Nat) : State :=
  match s.inst slot with
  | some i =>
    if i.state = .draining ∧ s.rate.pick 4800 9600 ≤ i.quiet then s.freeInst slot i (some .quiet) else s
  | none => s

/-- A DRAINING instance at its drain limit becomes FADING (R15). -/
def drainLimit (s : State) (slot : Nat) : State :=
  match s.inst slot with
  | some i =>
    if i.state = .draining ∧ s.since i.drainStart = i.drainLimit * s.rate.pick 4800 9600 then
      s.enterFading slot i (pathRamp s.rate) true none
    else s
  | none => s

/-- A FADING instance whose last fade frame has run becomes FREE (R16). -/
def fadeComplete (s : State) (slot : Nat) : State :=
  match s.inst slot with
  | some i =>
    if i.state = .fading ∧ fadeLength s.rate < i.fade then
      s.freeInst slot i (some (if i.byLimit then .limit else .cut))
    else s
  | none => s

/-- An offer whose window has reached zero is removed (R21). -/
def offerExpired (s : State) (slot : Nat) : State :=
  match s.inst slot with
  | some i =>
    match i.offer with
    | some o => if o.left = 0 then (s.setInst slot { i with offer := none }).raise i.owner .handover (.expired slot) else s
    | none => s
  | none => s

/-! ## Requests (R6 to R21, R26) -/

/-- CREATE (R6, R7). -/
def createRequest (s : State) (p : Port) (arg : SlotArg) (f : CreateForm) : State × Ans :=
  let slot := match arg with
    | .any => allSlots.find? fun k => (s.inst k).isNone
    | .named k => if (s.inst k).isNone then some k else none
  let bad := match arg with | .any => false | .named k => decide (31 < k)
  if bad || !formOk f then s.refuse .badArgument
  else
    match slot with
    | none => s.refuse .noSlot
    | some k =>
      let c := choiceOf s.rate f
      match s.chargeTest p c.1 with
      | some why => s.refuse why
      | none =>
        let names := c.2 ++ drainClamps f.drain
        (s.setUp k (newInst p c.1 (drainLimitOf f.drain) none (pathRamp s.rate) s.frame),
          ansClamped names (.created k (pagesNeeded s.rate c.1) (unitsNeeded c.1) names))

/-- RELEASE (R12). -/
def releaseRequest (s : State) (p : Port) (slot : Nat) (mode : Field RelMode) (drain : Option Nat) : State × Ans :=
  match mode with
  | .is .tail =>
    s.asOwner p slot true [.priming, .running, .held] fun i =>
      let i := match drain with | some x => { i with drainLimit := clampNat 5 200 x } | none => i
      (s.release slot i .tail (pathRamp s.rate), ansClamped (drainClamps drain) (.clamped (drainClamps drain)))
  | .is .cut =>
    s.asOwner p slot drain.isNone [.priming, .running, .held, .draining] fun i =>
      (s.release slot i .cut (pathRamp s.rate), ansDone .empty)
  | _ => s.refuse .badArgument

/-- HOLD (R10). -/
def holdRequest (s : State) (p : Port) (slot : Nat) : State × Ans :=
  s.asOwner p slot true [.running] fun i =>
    (s.setInst slot { i.rampSends false (pathRamp s.rate) with state := .held, ret := 0 }, ansDone .empty)

/-- UNHOLD (R11). -/
def unholdRequest (s : State) (p : Port) (slot : Nat) : State × Ans :=
  s.asOwner p slot true [.held] fun i =>
    (s.setInst slot { i.rampSends true (pathRamp s.rate) with state := .running, ret := 1 }, ansDone .empty)

/-- SHARE (R18). -/
def shareRequest (s : State) (p : Port) (slot : Nat) (on : Field Bool) : State × Ans :=
  match on with
  | .is b =>
    s.asOwner p slot true [.priming, .running, .held, .draining, .fading] fun i =>
      (s.setInst slot { i with shared := b }, ansDone .empty)
  | _ => s.refuse .badArgument

/-- Frames of an offer's window (R19). -/
def offerWindow (r : Rate) : Nat := r.pick 240000 480000

/-- GIVE (R19). -/
def giveRequest (s : State) (p : Port) (slot : Nat) (target : Field Port) : State × Ans :=
  match target with
  | .is q =>
    s.asOwner p slot true [.running, .held] fun i =>
      if q = p then s.refuse .badArgument
      else if i.offer.isSome ∨ s.linkUp q = false then s.refuse .badState
      else
        let s := s.setInst slot { i with offer := some { target := q, left := offerWindow s.rate } }
        (s.raise q .handover (.offered slot p), ansDone .empty)
  | _ => s.refuse .badArgument

/-- The checks of ACCEPT and DECLINE (R5), then the request. -/
def asTarget (s : State) (p : Port) (slot : Nat) (act : Inst → State × Ans) : State × Ans :=
  if 31 < slot then s.refuse .badArgument
  else
    match s.inst slot with
    | none => s.refuse .badState
    | some i =>
      match i.offer with
      | none => s.refuse .badState
      | some o => if o.target = p then act i else s.refuse .notOwner

/-- An instance handed over to port `q` (R20, R103). -/
def handOver (s : State) (slot : Nat) (i : Inst) (q : Port) : State :=
  let j := { i.mapRoutes (fun x => if s.holds q x.chan then x else x.depart s.rate) with
    owner := q, shared := false, offer := none, tag := none }
  let s := { s with alloc := (s.alloc.uncharge i.owner i.pages i.units).charge q i.pages i.units }
  let s := match i.link with | some k => (s.countLink k i.owner (· - 1)).countLink k q (· + 1) | none => s
  let s := (s.setInst slot j).raise i.owner .handover (.accepted slot)
  s.offerResources

/-- ACCEPT (R20). -/
def acceptRequest (s : State) (p : Port) (slot : Nat) : State × Ans :=
  s.asTarget p slot fun i =>
    match s.moveTest i.owner p i.pages i.units with
    | some why => s.refuse why
    | none => (s.handOver slot i p, ansDone .empty)

/-- DECLINE (R21). -/
def declineRequest (s : State) (p : Port) (slot : Nat) : State × Ans :=
  s.asTarget p slot fun i =>
    ((s.setInst slot { i with offer := none }).raise i.owner .handover (.declined slot), ansDone .empty)

/-- The fields STATUS reports (R26). -/
def statusReport (i : Inst) : StatusReport :=
  { state := i.state, owner := i.owner, shared := i.shared, kind := i.choice.kind, variant := i.choice.variant,
    span := if takesSpan i.choice.kind then some i.choice.span else none,
    taps := if i.choice.kind = .multitap then some i.choice.taps else none,
    voices := if i.choice.kind = .chorus then some i.choice.voices else none,
    mirror := i.choice.mirror,
    lines := if i.state = .waiting then none else some (i.lines.map fun l => (l.capacity, l.pages.length)),
    link := i.link, drainLimit := i.drainLimit,
    drainStart := if i.state = .draining ∨ i.state = .fading then some i.drainStart else none,
    quiet := if i.state = .draining then some i.quiet else none,
    tag := i.tag, offer := i.offer.map fun o => (o.target, o.left), saturation := i.saturation, poison := i.poison,
    pages := i.pages, units := i.units }

/-- STATUS (R26). -/
def statusRequest (s : State) (slot : Nat) : State × Ans :=
  if 31 < slot then s.refuse .badArgument
  else
    match s.inst slot with
    | none => (s, ansDone .statusFree)
    | some i => (s, ansDone (.status (statusReport i)))

/-- The entries of a MAP reply (R124). -/
def mapEntries (s : State) (l : List Nat) (start : Nat) : List MapEntry :=
  ((l.drop start).take 32).mapIdx fun k p =>
    { pos := start + k, page := p, bank := pageBank p, bankFailed := s.mem.bankFailed (pageBank p),
      migrating := match s.integ.copy with | some c => decide (c.source = p) | none => false }

/-- MAP (R124). -/
def mapRequest (s : State) (slot line : Nat) (list : Field PageList) (start : Nat) : State × Ans :=
  match list with
  | .is which =>
    if 31 < slot ∨ 8 < line then s.refuse .badArgument
    else
      match s.inst slot with
      | none => s.refuse .badState
      | some i =>
        if i.state = .waiting then s.refuse .badState
        else
          match i.lines[line]? with
          | none => s.refuse .badArgument
          | some l =>
            if (which = .mirror ∧ i.choice.mirror = false) ∨ l.pages.length ≤ start then s.refuse .badArgument
            else
              let pages := match which with | .primary => l.pages | .mirror => l.mirrors
              (s, ansDone (.map l.capacity l.pages.length l.writePos (s.mapEntries pages start)))
  | _ => s.refuse .badArgument

end State

end Sys2Proof.Machine
end

