-- ==== Sys2Proof/Machine/Transition.lean ====
section
/-! DEFINITION. The TRANSITION UNIT (chapter 8): staging, validation, the apply of a record in three passes, spillover,
supersession, and the recall requests. -/
namespace Sys2Proof.Machine

/-! ## Items (R143, R145) -/

/-- The slots an item names (R145 step 1). -/
def itemSlots : RecallItem → List Nat
  | .setParams slot _ _ => [slot]
  | .create slot _ _ _ _ _ _ => [slot]
  | .replace old new _ _ _ => [old, new]
  | .release slot _ => [slot]
  | .unknown => []

/-- The existing slot an item names, if any. -/
def itemOldSlot : RecallItem → Option Nat
  | .setParams slot _ _ => some slot
  | .replace old _ _ _ _ => some old
  | .release slot _ => some slot
  | .create _ _ _ _ _ _ _ | .unknown => none

/-- The new slot an item names, if any. -/
def itemNewSlot : RecallItem → Option Nat
  | .create slot _ _ _ _ _ _ => some slot
  | .replace _ new _ _ _ => some new
  | .setParams _ _ _ | .release _ _ | .unknown => none

/-- Whether a list of sends or routes is one an item can carry: at most `n`, each gain a coefficient (R28, R143). -/
def pathsOk (n : Nat) (l : List PathForm) : Bool := decide (l.length ≤ n) && l.all fun x => coefOk x.gain

/-- The form of an item alone, as RECALL_ITEM checks it (R143). A mirror choice that is neither yes nor no is left to the
commit (log entry 30). -/
def itemFormOk : RecallItem → Bool
  | .setParams slot pairs _ => decide (slot ≤ 31) && decide (1 ≤ pairs.length) && decide (pairs.length ≤ 16)
  | .create slot _ link params sends left right =>
    decide (slot ≤ 31) && (match link with | some k => decide (k ≤ 3) | none => true) && decide (params.length ≤ 32) &&
      pathsOk 4 sends && pathsOk 2 left && pathsOk 2 right
  | .replace old new form params policy =>
    decide (old ≤ 31) && decide (new ≤ 31) && form.drain.isNone && decide (params.length ≤ 32) &&
      (match policy with | .is _ => true | _ => false)
  | .release slot mode => decide (slot ≤ 31) && (match mode with | .is _ => true | _ => false)
  | .unknown => false

/-- Whether a parameter value fits an instance with these choices (R145 step 3). -/
def valueFits (r : Rate) (c : Choice) (x : Nat × ValueForm) : Bool :=
  valueFormOk x.1 x.2 && match paramSpec r c x.1 with
    | some sp => (acceptValue r sp none x.2).isSome
    | none => false

namespace State

/-- Whether all channels of sends or routes are in range (R145 step 3). -/
def chansOk (s : State) (l : List PathForm) : Bool := l.all fun x => decide (x.chan < channelCount s.rate)

/-- Step 3 of R145 for a new kind with its parameter values, an unknown mirror choice among them (log entry 30). -/
def newKindOk (s : State) (form : CreateForm) (params : List (Nat × ValueForm)) : Bool :=
  formOk form && params.all (valueFits s.rate (choiceOf s.rate form).1)

/-- Step 3 of R145. -/
def itemKindOk (s : State) : RecallItem → Bool
  | .setParams slot pairs _ =>
    pairs.all fun x => valueFormOk x.1 x.2 &&
      match s.inst slot with | some i => valueFits s.rate i.choice x | none => true
  | .create _ form _ params sends left right =>
    s.newKindOk form params && s.chansOk sends && s.chansOk left && s.chansOk right
  | .replace _ _ form params _ => s.newKindOk form params
  | .release _ _ => true
  | .unknown => false

/-- Steps 4 and 5 of R145 for an existing slot: the reason it fails, if it does. -/
def oldSlotFault (s : State) (p : Port) (slot : Nat) : Option Reason :=
  match s.inst slot with
  | none => some .badState
  | some i =>
    if i.owner ≠ p then some .notOwner
    else if i.state = .waiting ∨ i.state = .draining ∨ i.state = .fading ∨ i.offer.isSome then some .badState
    else none

/-- The steps 1 to 5 of R145 for one item among all. -/
def itemFault (s : State) (p : Port) (all : List RecallItem) (item : RecallItem) : Option Reason :=
  let named (slot : Nat) : Nat := all.countP fun x => decide (slot ∈ itemSlots x)
  if (itemSlots item).any fun k => decide (2 ≤ named k) then some .badArgument
  else if (match itemNewSlot item with | some k => (s.inst k).isSome | none => false) then some .badArgument
  else if s.itemKindOk item = false then some .badArgument
  else match itemOldSlot item with | some k => s.oldSlotFault p k | none => none

/-- The first item that fails validation, with its reason (R145). -/
def firstFault (s : State) (p : Port) (all : List RecallItem) : Option (Nat × Reason) :=
  ((all.zipIdx.map fun x => (x.2, s.itemFault p all x.1)).findSome? fun x => x.2.map fun r => (x.1, r))

/-! ## Apply (R147 to R150) -/

/-- The ramp of the sends of a recall in frames, at least 480/960 (R148). -/
def sendRamp (r : Rate) (ramp : Nat) : Nat := r.ms (max 10 ramp)

/-- Whether an item still stands at apply (R147). -/
def itemStands (s : State) (p : Port) (number : Nat) (item : RecallItem) : Bool :=
  (match itemOldSlot item with
    | some k => (s.oldSlotFault p k).isNone &&
        (match s.inst k with | some i => decide (i.tag = some number) | none => false)
    | none => true) &&
  (match itemNewSlot item with | some k => (s.inst k).isNone | none => true)

/-- An item that fails its second check: CANCELLED, the tag removed from the instance it names (R147). -/
def cancelItem (s : State) (p : Port) (number : Nat) (n : Nat) (item : RecallItem) : State :=
  let s := s.setResult p n .cancelled
  match itemOldSlot item with
  | some k => s.modInst k fun i => if i.owner = p ∧ i.tag = some number then { i with tag := none } else i
  | none => s

/-- The live paths of an instance's positions, with channels and set gains (R149). -/
def livePaths {n : Nat} (v : Vector (Option Path) n) : List KeptPath :=
  (v.toList.zipIdx.filterMap fun x =>
    match x.1 with
    | some y => if y.departing then none else some { pos := x.2, chan := y.chan, gain := y.setGain }
    | none => none)

/-- The sends or routes of a CREATE item, in positions from 0 in the order of its list (R149, log entry 69). -/
def formPaths (l : List PathForm) : List KeptPath := l.mapIdx fun k x => { pos := k, chan := x.chan, gain := x.gain }

/-- What the TRANSITION UNIT keeps for the new instance of an item, taken as the first pass begins (R149). -/
def keptOf (s : State) (n ramp : Nat) : RecallItem → Option (Nat × CreateForm × Kept)
  | .create slot form link params sends left right =>
    some (slot, form, { item := n, params := params, link := link, sends := formPaths sends, left := formPaths left,
                        right := formPaths right, clamped := false, noPages := false, ramp := ramp })
  | .replace old new form params _ =>
    let k : Kept := { item := n, params := params, link := none, sends := [], left := [], right := [], clamped := false,
                      noPages := false, ramp := ramp }
    some (new, form, match s.inst old with
      | some i => { k with sends := livePaths i.sends, left := livePaths i.left, right := livePaths i.right }
      | none => k)
  | .setParams _ _ _ | .release _ _ | .unknown => none

/-- The first pass for one item: its old instance let go (R148). -/
def passRelease (s : State) (p : Port) (ramp n : Nat) (item : RecallItem) : State :=
  match item with
  | .release slot (.is mode) =>
    let s := match s.inst slot with | some i => s.release slot i mode ramp | none => s
    s.setResult p n .ok
  | .replace old _ _ _ (.is mode) => match s.inst old with | some i => s.release old i mode ramp | none => s
  | _ => s

/-- One pair of a SET_PARAMS item, as a SET with the condition NOW (R148), and whether it was clamped. -/
def setPair (s : State) (ramp : Nat) (acc : Inst × Bool) (x : Nat × ValueForm) : Inst × Bool :=
  let i := acc.1
  match paramSpec s.rate i.choice x.1 with
  | none => acc
  | some sp =>
    match acceptValue s.rate sp (s.linkedFpb i) x.2 with
    | none => acc
    | some (v, names) =>
      let names := names ++ if rampUnused sp i x.1 v then [] else rampClamps sp ramp
      let j := ((i.dropUpdate x.1).startChange s.rate (s.linkedFpb i) x.1 v (s.rate.ms (acceptRamp sp.minRamp ramp))).1
      (j, acc.2 || decide (names ≠ []))

/-- The second pass for one item: its settings (R148). -/
def passSet (s : State) (p : Port) (ramp n : Nat) (item : RecallItem) : State :=
  match item with
  | .setParams slot pairs own =>
    match s.inst slot with
    | none => s
    | some i =>
      let ms := match own with | some x => x | none => ramp
      let r := pairs.foldl (s.setPair ms) (i, false)
      (s.setInst slot r.1).setResult p n (if r.2 then .clamped else .ok)
  | _ => s

/-- The DRAINING instances of a port that are not members of its transition (R150). -/
def eligibleDrains (s : State) (p : Port) (number : Nat) : List Nat :=
  allSlots.filter fun k =>
    match s.inst k with
    | some i => decide (i.owner = p ∧ i.state = .draining ∧ i.tag ≠ some number)
    | none => false

/-- The frames since the drain start of the instance in a slot. -/
def drainAge (s : State) (slot : Nat) : Nat :=
  match s.inst slot with
  | some i => s.since i.drainStart
  | none => 0

/-- The oldest of some slots' drains, the lower slot on equal drain start frames (R150). -/
def oldestDrain (s : State) : List Nat → Option Nat
  | [] => none
  | k :: t =>
    match s.oldestDrain t with
    | none => some k
    | some j => if s.drainAge k < s.drainAge j then some j else some k

/-- Drains forced to FADING, one at a time, while the cover falls short of a sum of shortfalls (R150), `fuel` of them at
most. -/
def forceDrains (p : Port) (number : Nat) : Nat → State → State
  | 0, s => s
  | fuel + 1, s =>
    match (s.rc p).record with
    | none => s
    | some r =>
      if r.shortPages ≤ r.coverPages ∧ r.shortUnits ≤ r.coverUnits then s
      else
        match s.oldestDrain (s.eligibleDrains p number) with
        | none => s
        | some k =>
          match s.inst k with
          | none => s
          | some i =>
            let s := s.modRecord p fun r =>
              { r with coverPages := r.coverPages + i.pages, coverUnits := r.coverUnits + i.units,
                       forced := r.forced ++ [k] }
            forceDrains p number fuel (s.enterFading k i (pathRamp s.rate) false none)

/-- The shortfalls of an item that goes WAITING, in pages and units (R150). -/
def shortfall (s : State) (p : Port) (c : Choice) : Nat × Nat :=
  let n := pagesNeeded s.rate c
  let u := unitsNeeded c
  let after := s.alloc.charge p n u
  (max (n - s.mem.freePages) (after.pageExcess s.straps - pageCommon s.straps),
    max (u - (unitBudget s.straps - s.alloc.units.sum)) (after.unitExcess s.straps - unitCommon s.straps))

/-- An item whose charge is refused: its slot is WAITING (R9, R149), and spillover acts (R150). -/
def waitItem (s : State) (slot : Nat) (base : Inst) (k : Kept) (why : Reason) (number : Nat) : State :=
  let short := s.shortfall base.owner base.choice
  let s := s.setInst slot { base with kept := some { k with noPages := decide (why = .noPages) } }
  let s := { s with alloc := { s.alloc with waiting := s.alloc.waiting ++ [slot] } }
  let s := s.modRecord base.owner fun r =>
    { r with shortPages := r.shortPages + short.1, shortUnits := r.shortUnits + short.2 }
  forceDrains base.owner number 32 s

/-- The third pass for one item: its new instance charged (R149). -/
def passCharge (s : State) (p : Port) (number : Nat) (x : Nat × CreateForm × Kept) : State :=
  let c := choiceOf s.rate x.2.1
  let k := { x.2.2 with clamped := decide (c.2 ++ drainClamps x.2.1.drain ≠ []) }
  let base := newInst p c.1 (drainLimitOf x.2.1.drain) (some number) k.ramp s.frame
  match s.chargeTest p c.1 with
  | none => s.setUpItem x.1 base k
  | some why => s.waitItem x.1 base k why number

/-- The apply of a port's record: the second check, then the three passes, then settling (R147 to R149, R152). -/
def applyRecord (s : State) (p : Port) (r : Record) : State :=
  let ramp := sendRamp s.rate r.ramp
  let all := r.items.zipIdx.map fun x => (x.2, x.1.item)
  let stand := all.filter fun x => s.itemStands p r.number x.2
  let fail := all.filter fun x => !s.itemStands p r.number x.2
  let new := stand.filterMap fun x => s.keptOf x.1 ramp x.2
  let s := fail.foldl (fun s x => s.cancelItem p r.number x.1 x.2) s
  let s := s.modRecord p fun r => { r with applyFrame := some s.frame }
  let s := stand.foldl (fun s x => s.passRelease p ramp x.1 x.2) s
  let s := stand.foldl (fun s x => s.passSet p r.ramp x.1 x.2) s
  let s := new.foldl (fun s x => s.passCharge p r.number x) s
  (s.modRecord p fun r => { r with state := .settling }).settleTest p

/-- A beat event and a bar event of a clock at the TRANSITION UNIT: the records ARMED on it are applied (R97, R147), those
of several ports in the order A, B, C (log entry 52). -/
def applyArmed (s : State) (clock : Nat) (beat bar : Bool) : State :=
  allPorts.foldl (fun s p =>
    match (s.rc p).record with
    | some r =>
      if r.state = .armed ∧ r.clock = some clock ∧ (if r.cond = .beat then beat else bar) = true then s.applyRecord p r
      else s
    | none => s) s

/-- A beat event and a bar event of a clock delivered: pending updates of the linked instances, then the records ARMED on
it (R80, R97), in that order by log entry 72. -/
def deliver (s : State) (clock : Nat) (beat bar : Bool) : State :=
  let conds := (if beat then [Cond.beat] else []) ++ (if bar then [Cond.bar] else [])
  let s := (s.linkedSlots clock).foldl (fun s k => s.applyUpdates k conds) s
  s.applyArmed clock beat bar

/-! ## Commit (R145, R146, R153) -/

/-- The record of a port superseded (R153). -/
def supersede (s : State) (p : Port) (r : Record) : State :=
  let open' := (s.members p r.number).filter fun k =>
    match s.inst k with | some i => decide (i.state = .waiting) | none => false
  let cancelled (x : RecordItem) : RecordItem :=
    if r.state = .armed ∨ x.result.isNone then { x with result := some .cancelled } else x
  let items := r.items.map cancelled
  let s := open'.foldl freeWaiting s
  let s := (s.dropTags p r.number).modRecord p fun r => { r with state := .superseded, items := items }
  s.raise p .transition (.transition r.number .superseded (itemCounts items))

/-- The record of an accepted commit in place, its instances tagged (R146). -/
def makeRecord (s : State) (p : Port) (x : Staging) : State :=
  let r : Record :=
    { number := x.number, state := .armed, cond := x.cond, clock := x.clock, ramp := x.ramp, applyFrame := none,
      items := x.items.map fun i => { item := i, result := none }, shortPages := 0, shortUnits := 0, coverPages := 0,
      coverUnits := 0, forced := [] }
  let s := s.setRc p { staging := none, record := some r }
  (x.items.filterMap itemOldSlot).foldl (fun s k => s.modInst k fun i => { i with tag := some x.number }) s

/-- The reply to an accepted commit (R146). -/
def commitReply (s : State) (p : Port) (superseded : Option Nat) : State × Ans :=
  match (s.rc p).record with
  | some r => (s, ansDone (.committed r.number r.state r.applyFrame (r.items.map RecordItem.result) superseded))
  | none => (s, ansDone .empty)

/-- A validated recall committed: supersession, the record, and the apply where the condition is NOW (R146, R153). -/
def commit (s : State) (p : Port) (x : Staging) : State × Ans :=
  let old := (s.rc p).record.bind fun r => if r.state = .armed ∨ r.state = .settling then some r else none
  let s := match old with | some r => s.supersede p r | none => s
  let s := s.makeRecord p x
  let s := match x.cond, (s.rc p).record with
    | .now, some r => s.applyRecord p r
    | _, _ => s
  s.commitReply p (old.map Record.number)

/-- RECALL_COMMIT (R145). -/
def commitRequest (s : State) (p : Port) : State × Ans :=
  match (s.rc p).staging with
  | none => s.refuse .badState
  | some x =>
    match s.firstFault p x.items with
    | some (n, why) => (s.setRc p { s.rc p with staging := none }, ansRefusedWith why (.failedItem n))
    | none => s.commit p x

/-! ## The other recall requests (R142 to R144, R155) -/

/-- The clock a recall waits on: none for NOW, and no recall waits for LFO_ZERO (R142). -/
def recallClock : Field Cond → Option Nat → Option (Cond × Option Nat)
  | .is .now, _ => some (.now, none)
  | .is .beat, some k => if k ≤ 3 then some (.beat, some k) else none
  | .is .bar, some k => if k ≤ 3 then some (.bar, some k) else none
  | _, _ => none

/-- RECALL_BEGIN (R142). -/
def beginRequest (s : State) (p : Port) (number : Nat) (cond : Field Cond) (clock : Option Nat) (ramp : Nat) :
    State × Ans :=
  match recallClock cond clock with
  | none => s.refuse .badArgument
  | some (c, k) =>
    if 65535 < number then s.refuse .badArgument
    else
      let names : List ClampName := if 5000 < ramp then [.defaultRamp] else []
      (s.setRc p { s.rc p with
        staging := some { number := number, cond := c, clock := k, ramp := min 5000 ramp, items := [] } },
        ansClamped names (.clamped names))

/-- RECALL_ITEM (R143). -/
def itemRequest (s : State) (p : Port) (item : RecallItem) : State × Ans :=
  match (s.rc p).staging with
  | none => s.refuse .badState
  | some x =>
    if 32 ≤ x.items.length then s.refuse .stagingFull
    else if itemFormOk item = false then s.refuse .badArgument
    else (s.setRc p { s.rc p with staging := some { x with items := x.items ++ [item] } },
      ansDone (.itemIndex x.items.length))

/-- RECALL_ABANDON (R144). -/
def abandonRequest (s : State) (p : Port) : State × Ans :=
  (s.setRc p { s.rc p with staging := none }, ansDone .empty)

/-- The limit of a WAITING instance in frames (R151). -/
def waitFrames (r : Rate) : Nat := r.pick 480000 960000

/-- One item as RECALL_RESULT reports it (R155). -/
def itemReport (s : State) (r : Record) (x : RecordItem) : ItemReport :=
  { item := x.item, result := x.result,
    waiting := match x.result, (itemNewSlot x.item).bind s.inst, r.applyFrame with
      | none, some i, some f => if i.state = .waiting then some (waitFrames s.rate - s.since f) else none
      | _, _, _ => none }

/-- RECALL_RESULT (R155). -/
def resultRequest (s : State) (p : Port) : State × Ans :=
  match (s.rc p).record with
  | none => (s, { status := .nothing, reason := none, body := .empty })
  | some r =>
    (s, ansDone (.recall
      { number := r.number, state := r.state, cond := r.cond, clock := r.clock, ramp := r.ramp,
        applyFrame := r.applyFrame, items := r.items.map (s.itemReport r), shortPages := r.shortPages,
        shortUnits := r.shortUnits, coverPages := r.coverPages, coverUnits := r.coverUnits, forced := r.forced }))

/-- A member still WAITING at the end of the frame in which its 10 s have passed becomes FREE and its item fails (R151,
log entry 16). -/
def waitLimit (s : State) (slot : Nat) : State :=
  match s.inst slot with
  | some i =>
    match i.state, i.kept, (s.rc i.owner).record.bind Record.applyFrame with
    | .waiting, some k, some f =>
      if waitFrames s.rate < s.since f then
        atFrameEnd (fun s =>
          ((s.freeWaiting slot).setResult i.owner k.item
            (if k.noPages then .failedNoPages else .failedNoUnits)).settleTest i.owner) s
      else s
    | _, _, _ => s
  | none => s

end State

end Sys2Proof.Machine
end

