-- ==== Sys2Proof/Machine/Tempo.lean ====
section
/-! DEFINITION. The TEMPO UNIT (chapter 5): the clock report, claims, tempo, meter, taps, beat events and links. -/
namespace Sys2Proof.Machine

namespace State

/-- The clock report of a clock (R92). -/
def clockReport (s : State) (k : Nat) (c : Clock) : ClockReport :=
  { clock := k, owner := c.owner, tempo := c.tempo, fpb := c.fpb, beats := c.beats, beat := c.beat,
    intervals := c.series, sinceTap := c.lastTap.map s.since, tapLine := c.tapLine, linked := c.linked }

/-- A reply that carries the clock report of a clock, where there is such a clock (R92). -/
def clockAns (s : State) (k : Nat) (status : Status) (reason : Option Reason) (names : List ClampName) : State × Ans :=
  (s, { status := status, reason := reason,
        body := match s.clock k with | some c => .clock (s.clockReport k c) names | none => .empty })

/-- DONE, or CLAMPED where something was clamped, with the clock report. -/
def clockDone (s : State) (k : Nat) (names : List ClampName) : State × Ans :=
  s.clockAns k (if names = [] then .done else .clamped) none names

/-- REFUSED with the clock report (R92). -/
def clockRefuse (s : State) (k : Nat) (r : Reason) : State × Ans := s.clockAns k .refused (some r) []

/-- Whether a clock is owned by a port other than `p` (R92). -/
def lockedFor (p : Port) (c : Clock) : Bool := decide (c.owner ≠ none ∧ c.owner ≠ some p)

/-- The checks 1 and 2 of R92, then the request. -/
def asClockUser (s : State) (p : Port) (k : Nat) (act : Clock → State × Ans) : State × Ans :=
  match s.clock k with
  | none => s.refuse .badArgument
  | some c => if lockedFor p c then s.clockRefuse k .locked else act c

/-- A TEMPO notice of a clock change at each port with a linked instance, its link UP, other than the port that made the
change (R104). -/
def tellTempo (s : State) (k : Nat) (cause : TempoCause) (source : TempoSource) : State :=
  match s.clock k with
  | none => s
  | some c =>
    allPorts.foldl (fun s q =>
      if 1 ≤ c.linked.get q ∧ source ≠ .port q then s.raiseUp q .tempo (.tempo k cause source c.tempo c.beats) else s) s

/-! ## Claims (R93) -/

/-- TEMPO_CLAIM (R93). -/
def tempoClaimRequest (s : State) (p : Port) (k : Nat) : State × Ans :=
  s.asClockUser p k fun c =>
    let t := if c.owner = some p then s else (s.setClock k { c with owner := some p }).tellTempo k .claimed (.port p)
    t.clockDone k []

/-- An owned clock becomes OPEN (R93, R105). -/
def openClock (s : State) (p : Port) (k : Nat) : State :=
  (s.modClock k fun c => { c with owner := none }).tellTempo k .released (.port p)

/-- TEMPO_RELEASE (R93). -/
def tempoReleaseRequest (s : State) (p : Port) (k : Nat) : State × Ans :=
  s.asClockUser p k fun c =>
    if c.owner = some p then (s.openClock p k).clockDone k [] else s.clockRefuse k .badState

/-! ## Tempo and meter (R94, R95) -/

/-- A clock at another tempo set by TEMPO_SET: the beat phase carried over in proportion, the intervals removed (R94). -/
def withTempo (r : Rate) (c : Clock) (t : Nat) : Clock :=
  let fpb := fpbOf r t
  { c with tempo := t, fpb := fpb, phase := c.phase * fpb / c.fpb, series := [] }

/-- TEMPO_SET (R94). -/
def tempoSetRequest (s : State) (p : Port) (k : Nat) (tempo : Option Nat) : State × Ans :=
  match tempo with
  | none => if k ≤ 3 then s.clockDone k [] else s.refuse .badArgument
  | some x =>
    s.asClockUser p k fun c =>
      let t := clampNat 4000 30000 x
      if t = c.tempo then s.clockDone k []
      else
        let s := (s.setClock k (withTempo s.rate c t)).retargetClock k
        (s.tellTempo k .tempo (.port p)).clockDone k (if t = x then [] else [.tempo])

/-- Whether the position within the bar, in beats, is an earlier one after a tap or a METER, which sets the phase to 0 (R101,
log entry 65). -/
def movesBack (c d : Clock) : Bool := decide (d.beat < c.beat ∨ (d.beat = c.beat ∧ 0 < c.phase))

/-- A clock as a tap or a METER leaves it, in place of `c`: where its position has moved backward, the synced oscillators of
the linked instances see it (R41, R101). -/
def moveClock (s : State) (k : Nat) (c d : Clock) : State :=
  let s := s.setClock k d
  if movesBack c d then (s.linkedSlots k).foldl (fun s n => s.modInst n Inst.turnBack) s else s

/-- METER (R95): the frame is the start of a bar, and carries one beat event and a bar event. Its TEMPO notices follow the
links as they stand after the delivery (log entry 49); of a frame whose beat was delivered, log entry 39. -/
def meterRequest (s : State) (p : Port) (k beats : Nat) : State × Ans :=
  s.asClockUser p k fun c =>
    let n := clampNat 1 16 beats
    let c' := { c with beats := n, beat := 1, phase := 0, beatNow := true, barNow := true, beatOwed := false,
                       barOwed := false }
    let s := (s.moveClock k c c').deliver k (!c.beatNow || c.beatOwed) (!c.barNow || c.barOwed)
    (s.tellTempo k .meter (.port p)).clockDone k (if n = beats then [] else [.beats])

/-! ## Taps (R98 to R101) -/

/-- The beat restarted by a tap (R101): the clock after it, and whether the tap gives a beat event and a bar event. -/
def restartBeat (c : Clock) : Clock × Bool × Bool :=
  if c.beatNow then ({ c with phase := 0 }, false, false)
  else
    let beat := if c.fpb ≤ 2 * c.phase then (if c.beats ≤ c.beat then 1 else c.beat + 1) else c.beat
    let bar := decide (beat = 1)
    ({ c with phase := 0, beat := beat, beatNow := true, barNow := bar }, true, bar)

/-- An interval added to a tap series, which holds at most 4 (R100). -/
def addInterval (l : List Nat) (n : Nat) : List Nat := (if 4 ≤ l.length then l.drop 1 else l) ++ [n]

/-- What becomes of a tap, by its interval (R100). -/
def tapBand (s : State) (c : Clock) : TapOutcome :=
  match c.lastTap with
  | none => .restarted
  | some f =>
    if s.since f < s.rate.pick 9600 19200 then .ignored
    else if s.rate.pick 72000 144000 < s.since f then .restarted
    else .appended

/-- A tap on a clock from a source (R98, R100, R101). A new FPB retargets and is told before the events of the tap are
delivered (log entries 49 and 57). -/
def tapClock (s : State) (k : Nat) (source : TempoSource) : State × TapOutcome :=
  match s.clock k with
  | none => (s, .ignored)
  | some c =>
    match s.tapBand c with
    | .ignored => (s, .ignored)
    | .restarted =>
      let b := restartBeat c
      let s := s.moveClock k c { b.1 with series := [], lastTap := some s.frame }
      (s.deliver k b.2.1 b.2.2, .restarted)
    | .appended =>
      let b := restartBeat c
      let series := addInterval c.series (match c.lastTap with | some f => s.since f | none => 0)
      let tempo := tempoOf s.rate series
      let fpb := fpbOf s.rate tempo
      let s := s.moveClock k c { b.1 with series := series, lastTap := some s.frame, tempo := tempo, fpb := fpb }
      let s := if fpb = c.fpb then s else (s.retargetClock k).tellTempo k .tap source
      (s.deliver k b.2.1 b.2.2, .appended)

/-- TAP (R98). -/
def tapRequest (s : State) (p : Port) (k : Nat) : State × Ans :=
  s.asClockUser p k fun c =>
    let r := s.tapClock k (.port p)
    match r.1.clock k with
    | some c => (r.1, ansDone (.tapped r.2 (r.1.clockReport k c)))
    | none => (s, ansDone (.tapped .ignored (s.clockReport k c)))

/-- The clock to which the footswitch is assigned (R90). -/
def tapLineClock (s : State) : Option Nat :=
  [0, 1, 2, 3].find? fun k => match s.clock k with | some c => c.tapLine | none => false

/-- TAP_LINE (R99). -/
def tapLineRequest (s : State) (p : Port) (k : Nat) : State × Ans :=
  s.asClockUser p k fun c =>
    match s.tapLineClock with
    | none => (s.setClock k { c with tapLine := true }).clockDone k []
    | some j =>
      if (match s.clock j with | some d => lockedFor p d | none => false) then s.clockRefuse k .locked
      else if j = k then s.clockDone k []
      else ((s.modClock j fun d => { d with tapLine := false }).setClock k { c with tapLine := true }).clockDone k []

/-- An edge on the TAP line: a tap on the clock that holds the line (R98). -/
def tapEdge (s : State) : State :=
  match s.tapLineClock with
  | some k => (s.tapClock k .tapLine).1
  | none => s

/-! ## Events of a clock (R96, R97, R100) -/

/-- The clocks at the end of a frame: the phase advances, and a beat event that the next frame carries is formed (R96). -/
def advanceClock (c : Clock) : Clock :=
  let phase := c.phase + 256
  if c.fpb ≤ phase then
    let beat := if c.beats ≤ c.beat then 1 else c.beat + 1
    let bar := decide (beat = 1)
    { c with phase := phase - c.fpb, beat := beat, beatNow := true, barNow := bar, beatOwed := true, barOwed := bar }
  else { c with phase := phase, beatNow := false, barNow := false, beatOwed := false, barOwed := false }

/-- The beat event that the present frame carries is delivered, once (R96, R97). -/
def beatEvent (s : State) (k : Nat) : State :=
  match s.clock k with
  | some c =>
    if c.beatOwed then (s.setClock k { c with beatOwed := false, barOwed := false }).deliver k true c.barOwed else s
  | none => s

/-- The last tap lapses at the end of the frame in which the interval to it has left the append band (R100). -/
def lapseTap (s : State) (k : Nat) : State :=
  s.modClock k fun c =>
    match c.lastTap with
    | some f => if s.rate.pick 72000 144000 + 1 < s.since f then { c with lastTap := none } else c
    | none => c

/-! ## LINK_TEMPO (R102) -/

/-- The reply of LINK_TEMPO: with the clock report of the clock named, or of the clock left (R92, R102). -/
def linkReply (r : State × Ans) (k : Option Nat) : State × Ans :=
  match k with
  | none => r
  | some n => (r.1.clockAns n r.2.status r.2.reason [])

/-- LINK_TEMPO (R102). NONE for an instance without a link is DONE, and its reply carries no clock (log entry 50). -/
def linkTempoRequest (s : State) (p : Port) (slot : Nat) (clock : Option Nat) : State × Ans :=
  let ok := match clock with | some k => decide (k ≤ 3) | none => true
  let r := s.asOwner p slot ok [.priming, .running, .held] fun i =>
    match clock with
    | some k => (if i.link = some k then s else s.linkTo slot i k, ansDone .empty)
    | none => (s.unlink slot i, ansDone .empty)
  let left := if r.2.status = .done then (s.inst slot).bind Inst.link else none
  linkReply r (match clock with | some k => some k | none => left)

end State

end Sys2Proof.Machine
end

