-- ==== Sys2Proof/Machine/Flags.lean ====
section
/-! DEFINITION. The NOTICE UNIT's service (chapter 11) and the lines that follow the state: which class NOTICE_TAKE finds,
masks, the in-service stack, error views, and the ATTENTION, CHAIN OUT and FAULT lines. -/
namespace Sys2Proof.Machine

/-- The twelve error names in code order (R184). -/
def allErrors : List ErrorName :=
  [.bankFailed, .nvFault, .uncorrectable, .corrected, .retired, .sparesExhausted, .migrateQueueFull, .clockLost,
   .laneLost, .poisonOutput, .frameCheck, .queueFull]

namespace NoticePort

/-- The pending unmasked classes in priority order (R178, R179). -/
def open' (n : NoticePort) : List NoticeClass :=
  allClasses.filter fun c => (n.classes.get c.idx).pending && decide (c ∉ n.classMask)

/-- Whether a class outranks the top of the in-service stack (R181). -/
def outranks (n : NoticePort) (c : NoticeClass) : Bool :=
  match n.stack with
  | [] => true
  | t :: _ => decide (c.idx < t.idx)

/-- The class that NOTICE_TAKE finds in VECTORED mode (R181). -/
def candidate (n : NoticePort) : Option NoticeClass := n.open'.find? n.outranks

/-- A class taken: no longer pending, its count 0, its detail kept (R180, R181). -/
def clearClass (n : NoticePort) (c : NoticeClass) : NoticePort :=
  { n with classes := n.classes.set c.idx { (n.classes.get c.idx) with pending := false, count := 0 } }

/-- What NOTICE_TAKE gives of a class (R180, R181). -/
def given (n : NoticePort) (c : NoticeClass) : NoticeGiven :=
  { cls := c, noted := (n.classes.get c.idx).detail, count := (n.classes.get c.idx).count }

/-! ## Lines (R183) -/

/-- ATTENTION as a port's notice state and CHAIN IN give it (R183). -/
def attention (n : NoticePort) : Bool :=
  match n.mode with
  | .polled => decide (n.open' ≠ [])
  | .vectored => n.chainIn && n.candidate.isSome

/-- CHAIN OUT as a port's notice state and CHAIN IN give it (R183). -/
def chainOut (n : NoticePort) : Bool :=
  match n.mode with
  | .polled => n.chainIn
  | .vectored => n.chainIn && decide (n.open' = []) && decide (n.stack = [])

end NoticePort

namespace State

/-- The ATTENTION line of a port, released while RESET is asserted (R173, R183). -/
def attentionLine (s : State) (p : Port) : Bool := s.running && (s.np p).attention

/-- The CHAIN OUT line of a port, released while RESET is asserted (R173, R183). -/
def chainOutLine (s : State) (p : Port) : Bool := s.running && (s.np p).chainOut

/-- The FAULT line: asserted while a bank is FAILED or NV_FAULT stands, released while RESET is asserted (R185). -/
def faultLine (s : State) : Bool := s.running && (s.nvFault || s.mem.banks.toList.any Bank.failed)

/-- The sample that an output channel carries in the present frame: 0 with nothing to carry and while RESET is asserted
(R156, R173). -/
def outputSample (s : State) (chan : Nat) : Int :=
  if s.running then match s.lanes.outNow[chan]? with | some x => x | none => 0 else 0

/-! ## Requests (R179 to R182, R184) -/

/-- A NOTICE_MASK set as it is kept: the named members in order, or none where one is unknown or not allowed (R179). -/
def maskOf {α : Type} [DecidableEq α] (allowed : List α) (l : List (Field α)) : Option (List α) :=
  if l.all fun f => match f with | .is x => decide (x ∈ allowed) | _ => false then
    some (allowed.filter fun x => decide (Field.is x ∈ l))
  else none

/-- NOTICE_MASK (R179). -/
def maskRequest (s : State) (p : Port) (classes : List (Field NoticeClass)) (errors : List (Field ErrorName)) :
    State × Ans :=
  match maskOf (allClasses.drop 1) classes, maskOf (allErrors.drop 2) errors with
  | some c, some e => (s.setNp p { s.np p with classMask := c, errorMask := e }, ansDone (.masks c e))
  | _, _ => s.refuse .badArgument

/-- NOTICE_TAKE in POLLED mode (R180). -/
def takePolled (s : State) (p : Port) : State × Ans :=
  let n := s.np p
  if n.open' = [] then (s, { status := .nothing, reason := none, body := .empty })
  else (s.setNp p (n.open'.foldl NoticePort.clearClass n), ansDone (.notices (n.open'.map n.given)))

/-- NOTICE_TAKE in VECTORED mode (R181). -/
def takeVectored (s : State) (p : Port) : State × Ans :=
  let n := s.np p
  match n.candidate with
  | none => (s, { status := .nothing, reason := none, body := .empty })
  | some c =>
    (s.setNp p { n.clearClass c with stack := c :: n.stack },
      ansDone (.vector (n.base + c.idx.val) (n.given c) (n.stack.length + 1)))

/-- NOTICE_TAKE (R180, R181). -/
def takeRequest (s : State) (p : Port) : State × Ans :=
  match (s.np p).mode with
  | .polled => s.takePolled p
  | .vectored => s.takeVectored p

/-- END_SERVICE (R182). With no class to pop, the reply still has the depth of the stack (log entry 73). -/
def endServiceRequest (s : State) (p : Port) : State × Ans :=
  let n := s.np p
  match n.mode, n.stack with
  | .vectored, c :: rest => (s.setNp p { n with stack := rest }, ansDone (.popped (some c) rest.length))
  | _, stack => (s, ansDone (.popped none stack.length))

/-- NOTICE_MODE (R182). -/
def modeRequest (s : State) (p : Port) (mode : Field NoticeMode) (base : Nat) : State × Ans :=
  match mode with
  | .is m =>
    if base ≤ 248 ∧ base % 8 = 0 then
      (s.setNp p { s.np p with mode := m, base := base, stack := [] }, ansDone .empty)
    else s.refuse .badArgument
  | _ => s.refuse .badArgument

/-- ERROR_READ (R184). -/
def errorReadRequest (s : State) (p : Port) : State × Ans :=
  (s, ansDone (.errorView (s.np p).first (s.np p).next.toList))

/-- ERROR_CLEAR (R184). -/
def errorClearRequest (s : State) (p : Port) : State × Ans :=
  (s.setNp p { s.np p with first := none, next := Vector.replicate 12 0 }, ansDone .empty)

end State

end Sys2Proof.Machine
end

