-- ==== Sys2Proof/Machine/Ports.lean ====
section
/-! DEFINITION. The CONTROL PORTS (chapter 10): message frames and their check, the inbound queue, replies on the transmit
line, IDENTIFY and BUDGET, link changes, PORT_CLEAR, the restart vote, engine start and restart. -/
namespace Sys2Proof.Machine

/-! ## The check (R168) -/

/-- One bit of the CRC-16 with the polynomial 0x1021 (R168). -/
def crcBit (c : BitVec 16) : BitVec 16 := if c.msb then (c <<< 1) ^^^ 0x1021#16 else c <<< 1

/-- One character taken into the CRC-16, most significant bit first (R168). -/
def crcByte (c : BitVec 16) (b : Byte) : BitVec 16 :=
  let x := c ^^^ (b.setWidth 16 <<< 8)
  crcBit (crcBit (crcBit (crcBit (crcBit (crcBit (crcBit (crcBit x)))))))

/-- The CRC-16 of characters in the order sent, from 0xFFFF (R168). -/
def crc16 (l : List Byte) : BitVec 16 := l.foldl crcByte 0xFFFF#16

/-- The low and the high byte of a 16-bit value, as they are sent (R168). -/
def lowHigh (x : Nat) : List Byte := [BitVec.ofNat 8 x, BitVec.ofNat 8 (x / 256)]

/-- The two check bytes of the characters from tag to body (R168). -/
def checkBytes (l : List Byte) : List Byte := lowHigh (crc16 l).toNat

/-! ## IDENTIFY (R172) -/

/-- A strap or port as IDENTIFY numbers it (R172). -/
def portCode : Port → Nat
  | .a => 0
  | .b => 1
  | .c => 2

/-- The bytes of the IDENTIFY reply's body (R172). -/
def identifyBytes (x : IdentifyReport) : List Byte :=
  ([0, 0] : List Byte) ++ lowHigh 0x0E7B ++ lowHigh 0x7340 ++
    [BitVec.ofNat 8 (Config.revisionLessOne + 1), BitVec.ofNat 8 (x.straps.rate.pick 0 1),
     (match x.straps.split with | .even => 0 | .twoDesk => 1), BitVec.ofNat 8 x.straps.engine.val,
     BitVec.ofNat 8 (portCode x.port)] ++
    lowHigh 8192 ++ lowHigh x.allocatable ++ [BitVec.ofNat 8 x.spares, BitVec.ofNat 8 x.retired] ++
    lowHigh x.unitBudget ++
    lowHigh x.pageReserves.a ++ lowHigh x.pageReserves.b ++ lowHigh x.pageReserves.c ++ lowHigh x.pageCommon ++
    lowHigh x.unitReserves.a ++ lowHigh x.unitReserves.b ++ lowHigh x.unitReserves.c ++ lowHigh x.unitCommon

/-! ## Replies as they are sent (R168, R170) -/

/-- The code of a status (R170). -/
def statusCode : Status → Byte
  | .done => 0
  | .clamped => 1
  | .pending => 2
  | .nothing => 3
  | .refused => 4

/-- The code of a reason (R170). -/
def reasonCode : Reason → Byte
  | .notOwner => 1
  | .badState => 2
  | .badArgument => 3
  | .noSlot => 4
  | .noPages => 5
  | .noUnits => 6
  | .claimed => 7
  | .notClaimed => 8
  | .locked => 9
  | .pendingFull => 10
  | .stagingFull => 11
  | .queueFull => 12

/-- The reason byte of a reply, 0 unless it is REFUSED (R168). -/
def reasonByte (r : Reply) : Byte := match r.reason with | some x => reasonCode x | none => 0

/-- The bytes of a reply's fields after status and reason: none for an empty body and where only clamps would be named and
there are none, those of the table of R172 for IDENTIFY, and bytes the spec does not give for the rest (R168, log entry
13). -/
def replyFields (r : Reply) : List Byte :=
  match r.body with
  | .empty | .clamped [] => []
  | .identify x => (identifyBytes x).drop 2
  | _ => (Config.replyFields r).take 248

/-- The message frame of a reply: start, tag, code, length, status, reason, fields and check (R168). -/
def replyFrame (r : Reply) : List Byte :=
  let body := statusCode r.status :: reasonByte r :: replyFields r
  let data := r.tag :: r.code :: BitVec.ofNat 8 body.length :: body
  0xA5#8 :: (data ++ checkBytes data)

/-- How many characters that is. -/
def replyChars (r : Reply) : Nat := 8 + (replyFields r).length

namespace State

/-- IDENTIFY (R172). -/
def identifyRequest (s : State) (p : Port) : State × Ans :=
  (s, ansDone (.identify
    { straps := s.straps, port := p, allocatable := s.mem.allocatable, spares := s.mem.spares.length,
      retired := s.integ.retired.length, unitBudget := unitBudget s.straps, pageReserves := pageReserve s.straps,
      pageCommon := pageCommon s.straps, unitReserves := unitReserve s.straps, unitCommon := unitCommon s.straps }))

/-! ## BUDGET (R123) -/

/-- One port's accounting (R123). -/
def portBudget (s : State) (p : Port) : PortBudget :=
  { pages := s.alloc.pages.get p, units := s.alloc.units.get p,
    pageExcess := s.alloc.pages.get p - (pageReserve s.straps).get p,
    unitExcess := s.alloc.units.get p - (unitReserve s.straps).get p }

/-- One bank's pages (R123). -/
def bankBudget (s : State) (b : Nat) : BankBudget :=
  { failed := s.mem.bankFailed b, free := s.mem.freeIn b,
    cleanFree := s.mem.countIn b fun x => decide (x = .free true), spare := s.mem.countIn b PageState.isSpare,
    retired := s.mem.countIn b fun x => decide (x = .retired), withdrawn := s.mem.withdrawnIn b }

/-- BUDGET (R123). -/
def budgetRequest (s : State) (p : Port) : State × Ans :=
  let pe := s.alloc.pageExcess s.straps
  let ue := s.alloc.unitExcess s.straps
  let unitsLeft := unitBudget s.straps - s.alloc.units.sum
  (s, ansDone (.budget
    { split := s.straps.split, rate := s.rate, unitBudget := unitBudget s.straps, pageReserves := pageReserve s.straps,
      pageCommon := pageCommon s.straps, unitReserves := unitReserve s.straps, unitCommon := unitCommon s.straps,
      ports := ⟨s.portBudget .a, s.portBudget .b, s.portBudget .c⟩, pageExcess := pe, unitExcess := ue,
      pageCommonLeft := pageCommon s.straps - pe, unitCommonLeft := unitCommon s.straps - ue, unitsLeft := unitsLeft,
      banks := [s.bankBudget 0, s.bankBudget 1, s.bankBudget 2, s.bankBudget 3], freePages := s.mem.freePages,
      spares := s.mem.spares.length,
      retired := ([0, 1, 2, 3].map fun b => s.mem.countIn b fun x => decide (x = .retired)).sum,
      withdrawn := s.mem.withdrawnIn 0 + s.mem.withdrawnIn 1 + s.mem.withdrawnIn 2 + s.mem.withdrawnIn 3,
      waiting := s.alloc.waiting.length,
      pageHeadroom := headroom s.mem.freePages (s.alloc.pages.get p) ((pageReserve s.straps).get p)
        (pageCommon s.straps) pe,
      unitHeadroom := headroom unitsLeft (s.alloc.units.get p) ((unitReserve s.straps).get p)
        (unitCommon s.straps) ue }))

/-! ## Receiving (R168, R169) -/

/-- An error of a port's own line, with its SYSTEM notice (R168, R169). -/
def frameError (s : State) (p : Port) : State := s.report p .frameCheck .frameCheck

/-- A checked frame joins its port's queue, or is answered QUEUE_FULL or dropped (R169). A QUEUE_FULL reply on the line is
not counted among the 8 held (log entry 60). -/
def enqueue (s : State) (p : Port) (q : QueuedReq) : State :=
  let x := s.io p
  if x.queue.length < 8 then s.setIo p { x with queue := x.queue ++ [q] }
  else
    let s := s.report p .queueFull .queueFull
    if x.held.length < 8 then s.setIo p ({ x with held := x.held ++ [(q.tag, q.code)] }).sendNext else s

/-- A whole frame, from tag to check, whose length field is `len` (R168). -/
def frameWhole (s : State) (p : Port) (l : List Byte) (len : Nat) : State :=
  let data := l.take (3 + len)
  if checkBytes data = l.drop (3 + len) then
    match data with
    | tag :: code :: _ :: body => s.enqueue p { tag := tag, code := code, body := body }
    | _ => s
  else s.frameError p

/-- One character at a port whose link is UP: the receiver hunts for 0xA5, then reads a frame (R168). That
a character inside a frame was not valid does not matter (log entry 61). -/
def feed (s : State) (p : Port) (b : Byte) : State :=
  let x := s.io p
  match x.rx with
  | [] => if b = 0xA5#8 then s.setIo p { x with rx := [b] } else s
  | start :: got =>
    let l := got ++ [b]
    match l with
    | _ :: _ :: len :: _ =>
      if 251 ≤ len.toNat then (s.setIo p { x with rx := [] }).frameError p
      else if l.length < 5 + len.toNat then s.setIo p { x with rx := start :: l }
      else (s.setIo p { x with rx := [] }).frameWhole p l len.toNat
    | _ => s.setIo p { x with rx := start :: l }

/-- Characters received on a port; in DOWN no frame is received (R167, R168). -/
def receive (s : State) (p : Port) (chars : List Byte) : State :=
  if s.linkUp p then chars.foldl (fun s b => s.feed p b) s else s

/-! ## Requests whose form fails (R168, R171) -/

/-- A port that can take its next request answers it BAD_ARGUMENT where it is malformed (R168, R169); with no clock
or channel report (log entry 51). -/
def answerMalformed (s : State) (p : Port) : State :=
  match (s.io p).queue with
  | q :: _ =>
    if s.portReady p && malformed q then s.takeNext q.code { port := p, tag := q.tag } fun s => s.refuse .badArgument
    else s
  | [] => s

/-! ## The transmit line (R167, R169) -/

/-- Eighths of a character that the line carries in one frame: 6.25 characters at 48 kHz, 3.125 at 96 kHz (R167). -/
def lineRate (r : Rate) : Nat := r.pick 50 25

/-- The character on a port's transmit line as a frame begins: the next of the reply being sent, 0xFF with no reply to send,
in every link state and while RESET is asserted (R167, R169, R173). -/
def lineChar (s : State) (p : Port) : Byte :=
  match s.running, (s.io p).sending with
  | true, some y => (replyFrame y.reply).getD (y.sent / 8) 0xFF#8
  | _, _ => 0xFF#8

/-- One frame of a port's transmit line: a reply that has been sent to its end leaves room for the next (R169). -/
def transmit (r : Rate) (x : PortIo) : PortIo :=
  match x.sending with
  | none => x.sendNext
  | some y =>
    let sent := y.sent + lineRate r
    if 8 * replyChars y.reply ≤ sent then
      ({ x with sending := none, awaited := x.awaited && x.answer.isSome }).sendNext
    else { x with sending := some { y with sent := sent } }

/-- One frame of a port's receiver: the run toward UP and the silence toward DOWN (R167). -/
def judgeLink (f : RxFrame) (x : PortIo) : PortIo :=
  if x.up then { x with silence := if f.valid then 0 else x.silence + 1 }
  else { x with run := if f.valid && !f.invalid then x.run + 1 else 0 }

/-! ## The restart vote (R175, R176) -/

/-- Whether the voters hold every port whose link is UP (R175). -/
def votersCover (s : State) (v : PerPort Bool) : Bool := allPorts.all fun p => !s.linkUp p || v.get p

/-- Whether a voter set is empty. -/
def noVoters (v : PerPort Bool) : Bool := !(v.a || v.b || v.c)

/-- The vote carries if its voters hold every port that is UP (R175). -/
def tryCarry (s : State) (v : Vote) : State :=
  { s with vote := some { v with carried := v.carried || s.votersCover v.voters } }

/-- Once a vote has carried, the restart waits for the replies that are being sent, or wait to be, at that moment, and for
no later one (R176, log entry 79). -/
def markAwaited (s : State) : State :=
  { s with ports := s.ports.map fun x => { x with awaited := x.sending.isSome || x.answer.isSome } }

/-- Whether a vote has carried (R176). -/
def carried (s : State) : Bool := match s.vote with | some v => v.carried | none => false

/-- Frames of a vote's window (R175). -/
def voteWindow (r : Rate) : Nat := r.pick 96000 192000

/-- RESTART (R175). -/
def restartRequest (s : State) (p : Port) : State × Ans :=
  let answered (s : State) : State × Ans :=
    (s, { status := if s.carried then .done else .pending, reason := none, body := .empty })
  match s.vote with
  | none =>
    answered ((s.raiseOthers p .system (.voteOpened p)).tryCarry
      { voters := (⟨false, false, false⟩ : PerPort Bool).set p true, left := voteWindow s.rate, carried := false })
  | some v =>
    if v.voters.get p then (s, ansDone .empty) else answered (s.tryCarry { v with voters := v.voters.set p true })

/-- A port leaves the voter set; a set left empty drops the vote (R175), unless it has carried (log entry 80). -/
def leaveVote (s : State) (p : Port) : State :=
  match s.vote with
  | none => s
  | some v =>
    let voters := v.voters.set p false
    if v.carried then { s with vote := some { v with voters := voters } }
    else if noVoters voters then { s with vote := none }
    else { s with vote := some { v with voters := voters } }

/-- The vote dropped when its window reaches zero (R175). -/
def dropVote (s : State) : State :=
  match s.vote with
  | none => s
  | some v =>
    if v.carried ∨ 0 < v.left then s
    else
      atFrameEnd (fun s =>
        allPorts.foldl (fun s p => if v.voters.get p then s.raiseUp p .system .voteDropped else s)
          { s with vote := none }) s

/-! ## Links (R167, R177) -/

/-- A port's link comes UP once its run is complete (R167). -/
def linkComesUp (s : State) (p : Port) : State :=
  let x := s.io p
  if x.up ∨ x.run < s.rate.pick 480 960 then s
  else
    atFrameEnd (fun s =>
      (s.setIo p { x with up := true, silence := 0, rx := [] }).raiseOthers p .system (.linkUp p)) s

/-- What the loss of a link does to the vote: the port leaves it, and it may carry with no reply (R175). -/
def voteLinkLost (s : State) (p : Port) : State :=
  let t := s.leaveVote p
  match t.vote with
  | none => t
  | some v => if v.carried then t else
      let u := t.tryCarry v
      if u.carried then u.markAwaited else u

/-- A port's link goes DOWN after its silence (R167, R177). -/
def linkGoesDown (s : State) (p : Port) : State :=
  let x := s.io p
  if x.up = false ∨ x.silence < s.rate.pick 4800 9600 then s
  else
    atFrameEnd (fun s =>
      let s := s.setIo p PortIo.reset
      let s := s.setRc p { s.rc p with staging := none }
      let s := s.cancelOffers p none
      let s := s.voteLinkLost p
      s.raiseOthers p .system (.linkDown p)) s

/-! ## PORT_CLEAR (R174) -/

/-- The slots of a port's instances in a state that a test names. -/
def ownedIn (s : State) (p : Port) (test : InstState → Bool) : List Nat :=
  allSlots.filter fun k => match s.inst k with | some i => decide (i.owner = p) && test i.state | none => false

/-- The channels CLAIMED by a port (R163). -/
def claimedBy (s : State) (p : Port) : List Nat := (List.range 64).filter fun c => s.holds p c

/-- The clocks owned by a port (R105). -/
def clocksOf (s : State) (p : Port) : List Nat :=
  [0, 1, 2, 3].filter fun k => match s.clock k with | some c => decide (c.owner = some p) | none => false

/-- A port's PRIMING instance freed by its clear (R24). -/
def clearPriming (s : State) (k : Nat) : State :=
  match s.inst k with
  | some i => s.freeInst k i none
  | none => s

/-- A port's RUNNING, HELD or DRAINING instance faded by its clear (R24). -/
def clearFading (p : Port) (s : State) (k : Nat) : State :=
  match s.inst k with
  | some i => s.enterFading k i (pathRamp s.rate) false (some p)
  | none => s

/-- PORT_CLEAR (R174). Its instances are freed and let go by rising slot, freed resources offered after each (R24, log entry
55), before its channels are released (R163, log entry 78); its clocks are opened last (R105, log entry 64). -/
def portClearRequest (s : State) (p : Port) : State × Ans :=
  let waiting := s.ownedIn p fun x => decide (x = .waiting)
  let priming := s.ownedIn p fun x => decide (x = .priming)
  let fading := s.ownedIn p fun x => decide (x = .running ∨ x = .held ∨ x = .draining)
  let channels := s.claimedBy p
  let clocks := s.clocksOf p
  let s := s.setNp p (NoticePort.reset (s.np p).chainIn)
  let s := match (s.rc p).record with | some r => s.dropTags p r.number | none => s
  let s := s.setRc p { staging := none, record := none }
  let s := waiting.foldl freeWaiting s
  let s := s.cancelOffers p (some p)
  let s := priming.foldl clearPriming s
  let s := fading.foldl (clearFading p) s
  let s := channels.foldl (fun s c => s.releaseChannel p c) s
  let s := clocks.foldl (fun s k => s.openClock p k) s
  (s.leaveVote p,
    ansDone (.cleared (waiting.length + priming.length) fading.length channels.length clocks.length))

/-! ## Engine start, reset and restart (R173, R176) -/

/-- The clocks at engine start and restart (R91). -/
def startClocks (r : Rate) : Vector Clock 4 :=
  let fpb := fpbOf r 12000
  #v[Clock.reset fpb true, Clock.reset fpb false, Clock.reset fpb false, Clock.reset fpb false]

/-- The blocks that engine start and restart set alike: instances, charges, clocks, recalls and notices (R25, R91, R119,
R146, R186). -/
def startBlocks (s : State) (r : Rate) : State :=
  { s with
    frame := 0, ending := false, vote := none, insts := Vector.replicate 32 none,
    alloc := { charged := ⟨⟨0, 0⟩, ⟨0, 0⟩, ⟨0, 0⟩⟩, waiting := [] }, clocks := startClocks r,
    recalls := ⟨⟨none, none⟩, ⟨none, none⟩, ⟨none, none⟩⟩,
    notices := s.notices.map fun n => NoticePort.reset n.chainIn }

/-- Engine start (R173): the straps are read and the nonvolatile list loaded, given or as it is stored. -/
def engineStart (s : State) (straps : Straps) (nv : Option NvImage) : State :=
  let image := match nv with | some x => x | none => s.integ.nv
  let good := nvReadable image
  let retired := if good then image.pages else []
  let t := { s.startBlocks straps.rate with
    running := true, straps := straps, nvFault := !good,
    ports := ⟨PortIo.reset, PortIo.reset, PortIo.reset⟩, mem := s.mem.rebuild retired,
    integ := { Integrity.reset with retired := retired, recorded := retired.length, nv := image },
    lanes := Lanes.reset }
  if good then t else t.reportAll .nvFault .nvFault

/-- RESET asserted, or power lost: no frame runs, the outputs carry zero, replies and the append are cut short (R140,
R173). -/
def assertReset (s : State) : State :=
  { s with
    running := false, lanes := { s.lanes with outNow := [], outNext := [] },
    ports := s.ports.map fun x => { x with sending := none, answer := none },
    integ := { s.integ with append := none } }

/-- The restart, once a vote has carried and the replies being sent are sent (R176). -/
def engineRestart (s : State) : State :=
  if s.running = false ∨ s.carried = false ∨ allPorts.any (fun p => (s.io p).awaited) then s
  else
    let x := s.integ
    let t := { s.startBlocks s.rate with
      nvFault := false,
      ports := s.ports.map fun q => { PortIo.reset with up := q.up, run := q.run, silence := q.silence },
      mem := s.mem.rebuild x.retired,
      integ := { Integrity.reset with retired := x.retired, recorded := x.recorded, append := x.append, nv := x.nv,
                                      late := x.late },
      lanes := { s.lanes with claims := Lanes.reset.claims, outNow := [], outNext := [] } }
    allPorts.foldl (fun t p => t.raiseUp p .system .restarted) t

end State

end Sys2Proof.Machine
end

