-- ==== Sys2Proof/Machine/Audio.lean ====
section
/-! DEFINITION. One frame of one instance in the EFFECT CORE (chapters 2 and 3): its reads with their outcomes, the
computation of its kind, the output chain with the poison envelope, and its writes. -/
namespace Sys2Proof.Machine

/-! ## Oscillators (R40, R41, R68) -/

/-- The phase an oscillator has in a frame: formed from the linked clock where it is synced and linked, the stored one
otherwise (R40, R41). -/
def phaseNow (clock : Option Clock) (i : Inst) (o : Osc) : BitVec 32 :=
  match lfoDivision i, clock with
  | some code, some c => syncedPhase c.fpb c.phase c.beat (divisionBeats code).1 (divisionBeats code).2
  | _, _ => o.phase

/-- An oscillator at the end of a frame in which it had the phase `now` (R40, R41). An addition that comes to exactly 2 to
the 32 is a wrap (log entry 43). -/
def stepOsc (r : Rate) (i : Inst) (now : BitVec 32) : Osc :=
  match lfoDivision i with
  | some _ => { phase := now, last := now, wrapped := false, moved := false, acted := false }
  | none =>
    let inc := lfoIncrement r (i.value (rateParam i.choice.kind)).toNat
    { phase := now + BitVec.ofNat 32 inc, last := now, wrapped := decide (4294967296 ≤ now.toNat + inc), moved := false,
      acted := false }

/-- Whether the present frame is a wrap of a formed phase: the phase is less than that of the frame before, or a tap or a
METER has moved the clock's position backward (R41, R101; log entry 65). -/
def formedWrap (clock : Option Clock) (i : Inst) (o : Osc) : Bool :=
  match lfoDivision i, clock with
  | some _, some _ => o.moved || decide ((phaseNow clock i o).toNat < o.last.toNat)
  | _, _ => false

/-- Whether the first oscillator has a wrap that has not been taken: the addition at the end of the last frame passed 2 to
the 32, whatever has become of its rate since (R40), or its formed phase is less than that of the frame before, which is
one wrap however the position moves in the frame (R41). -/
def lfoWrapped (clock : Option Clock) (i : Inst) : Bool :=
  match i.oscs with
  | [] => false
  | o :: _ => o.wrapped || (!o.acted && formedWrap clock i o)

/-- The wraps of the oscillators taken, each once: a wrap of the free phase and one of the formed phase are two. -/
def clearWrap (clock : Option Clock) (i : Inst) : Inst :=
  { i with oscs := i.oscs.map fun o => { o with wrapped := false, acted := o.acted || formedWrap clock i o } }

/-- The phase offset that SPREAD gives voice `v` (R68). -/
def spreadOffset (spread v : Nat) : BitVec 32 := BitVec.ofNat 32 (v * roundDiv (spread * 4294967296) 360)

/-- The value of voice `v`'s oscillator (R42, R68): SHAPE 1 is the triangle. -/
def voiceValue (i : Inst) (now : BitVec 32) (v : Nat) : Int :=
  let phase := now + spreadOffset (i.value 7).toNat v
  if i.value 6 = 1 then triangle phase else sine phase

/-! ## The reads of a frame (R32, R55, R58, R61, R64, R67) -/

/-- One read of a line: one head, or the two heads of a crossfade with the weight of the second (R86). -/
structure LineRead where
  line : Nat
  heads : List Nat
  weight : Int
  deriving DecidableEq, Repr

/-- A read at the delay that a time parameter has in effect, by two heads while its crossfade runs, each head's delay as
`mod` gives it (R43, R86). -/
def timeRead (i : Inst) (line n : Nat) (mod : Int → Nat) : LineRead :=
  match i.param n with
  | none => { line := line, heads := [], weight := 0 }
  | some p =>
    match p.xfade with
    | some x => { line := line, heads := [mod x.old, mod x.new], weight := Int.tdiv (32768 * x.pos) x.len }
    | none => { line := line, heads := [mod p.value.m], weight := 0 }

/-- A read at one delay. -/
def plainRead (line d : Nat) : LineRead := { line := line, heads := [d], weight := 0 }

/-- The capacity of a line. -/
def lineCap (i : Inst) (k : Nat) : Nat := match i.lines[k]? with | some l => l.capacity | none => 0

/-- The length in 1/256 sample of allpass or network line `k`, 0 to 7, at the SIZE in effect (R54). -/
def reverbDelay (r : Rate) (i : Inst) (k : Nat) : Nat :=
  sizedLength r ((reverbLengths i.choice.variant).getD k 0) (i.value 3).toNat * 256

/-- The reads an instance makes in a frame, in order, with the phase of its oscillators. -/
def lineReads (r : Rate) (i : Inst) (now : BitVec 32) : List LineRead :=
  match i.choice.kind with
  | .reverb =>
    let depth := i.value 7 * r.pick 256 512
    timeRead i 0 4 Int.toNat ::
      ((List.range 4).map fun k => plainRead (k + 1) (reverbDelay r i k)) ++
      [plainRead 5 (modulated (reverbDelay r i 4) depth (sine now) (lineCap i 5)),
       plainRead 6 (modulated (reverbDelay r i 5) depth (sine (now + 0x40000000#32)) (lineCap i 6)),
       plainRead 7 (reverbDelay r i 6), plainRead 8 (reverbDelay r i 7)]
  | .delay =>
    let depth : Int := hundredthsToDelay r (i.value 5).toNat
    [timeRead i 0 2 fun d => modulated d depth (sine now) (lineCap i 0)]
  | .pingpong => [timeRead i 0 2 Int.toNat, timeRead i 1 3 Int.toNat]
  | .multitap => (List.range i.choice.taps).map fun k => timeRead i 0 (3 * k + 8) Int.toNat
  | .chorus =>
    let depth : Int := hundredthsToDelay r (i.value 4).toNat
    (List.range i.choice.voices).map fun v =>
      plainRead v (modulated (i.value 3) depth (voiceValue i now v) (lineCap i v))

/-! ## Outcomes of the reads (R113 to R115) -/

/-- One group read on a line: the page its samples are taken from, none where the read is poisoned (R114, R115, R118). Of
two groups that are lost the primary page's is handled first (log entry 77). -/
def readGroup (faults : List GroupFault) (s : State) (page : Nat) (mirror : Option Nat) (group : Nat) :
    State × Option Nat :=
  let failing (s : State) (p : Nat) (rescued : Bool) : State :=
    if s.mem.bankFailed (pageBank p) then s else s.uncorrectable p group rescued
  match s.outcome faults page group with
  | .clean => (s, some page)
  | .corrected => (s.corrected page, some page)
  | .uncorrectable =>
    match mirror with
    | none => (failing s page false, none)
    | some q =>
      match s.outcome faults q group with
      | .clean => (failing (s.modMem fun m => m.copyGroup q page group) page true, some q)
      | .corrected => ((failing (s.modMem fun m => m.copyGroup q page group) page true).corrected q, some q)
      | .uncorrectable =>
        let lost := s.mem.bankFailed (pageBank q)
        let s := failing s page false
        (if lost then s else s.uncorrectable q group false, none)

/-- The groups read so far in a frame by page and group, with the page their samples come from. -/
abbrev GroupsRead := List ((Nat × Nat) × Option Nat)

/-- The ring position `d` samples before the write position (R2). -/
def ringPos (l : Line) (d : Nat) : Nat :=
  let n := l.pages.length * 1024
  (l.writePos + (n - d % n)) % n

/-- The group of one ring position read, once per frame (R113). -/
def touch (faults : List GroupFault) (l : Line) (acc : State × GroupsRead) (n : Nat) : State × GroupsRead :=
  match l.pages[n / 1024]? with
  | none => acc
  | some page =>
    let g := n % 1024 / 8
    if acc.2.any fun c => decide (c.1 = (page, g)) then acc
    else
      let r := readGroup faults acc.1 page l.mirrors[n / 1024]? g
      (r.1, acc.2 ++ [((page, g), r.2)])

/-- All groups that the reads of an instance touch, in order. -/
def touchAll (faults : List GroupFault) (i : Inst) (reads : List LineRead) (s : State) : State × GroupsRead :=
  reads.foldl (fun acc x =>
    match i.lines[x.line]? with
    | none => acc
    | some l =>
      x.heads.foldl (fun acc d => touch faults l (touch faults l acc (ringPos l (d / 256))) (ringPos l (d / 256 + 1))) acc)
    (s, [])

/-- The sample at a ring position, none where its read is poisoned. -/
def sampleAt (m : DelayMem) (got : GroupsRead) (l : Line) (n : Nat) : Option Int :=
  match l.pages[n / 1024]? with
  | none => none
  | some page =>
    match got.find? fun c => decide (c.1 = (page, n % 1024 / 8)) with
    | some (_, some src) => some (m.sample (src * 1024 + n % 1024))
    | _ => none

/-- The value of one head: the interpolated read, zero where it is poisoned (R33, R45). -/
def headValue (m : DelayMem) (got : GroupsRead) (l : Line) (d : Nat) : Int :=
  match sampleAt m got l (ringPos l (d / 256)), sampleAt m got l (ringPos l (d / 256 + 1)) with
  | some a, some b => interpolate a b (d % 256)
  | _, _ => 0

/-- The value of a read: one head's, or the crossfade read of two (R33, R86). -/
def readValue (m : DelayMem) (got : GroupsRead) (i : Inst) (x : LineRead) : Int :=
  match i.lines[x.line]?, x.heads with
  | some l, [d] => headValue m got l d
  | some l, [d, e] => take 0 (headValue m got l d * (32768 - x.weight) + headValue m got l e * x.weight)
  | _, _ => 0

/-! ## The kinds (R55, R57, R58, R60, R61, R63, R64, R66, R67, R70) -/

/-- What the computation of a kind gives: the sample written to each line, the damping state of each line, the two output
sums before OUT_GAIN, and how many takes clamped. -/
structure KindOut where
  writes : List Int
  damps : List Int
  left : Int
  right : Int
  clamps : Nat
  deriving DecidableEq, Repr

/-- The damping state of a line. -/
def dampOf (i : Inst) (k : Nat) : Int := match i.lines[k]? with | some l => l.damp | none => 0

/-- Whether an instance is HELD. -/
def isHeld (i : Inst) : Bool := decide (i.state = .held)

/-- The number of its DAMP parameter. -/
def dampParam : Kind → Nat
  | .reverb => 5
  | .delay | .multitap => 4
  | _ => 6

/-- The damping coefficient in effect (R34, R36, R52). -/
def dampNow (r : Rate) (i : Inst) : Int := dampInEffect r (isHeld i) i.ret (i.value (dampParam i.choice.kind))

/-- One allpass line with gain `g`: the value to write, the output, and its clamps (R37). -/
def allpass (g x d : Int) : Int × Int × Nat :=
  let a := x * 32768 - g * d
  let v := take 0 a
  let b := d * 32768 + g * v
  (v, take 0 b, takeClamps 0 a + takeClamps 0 b)

/-- A REVERB (R38, R55, R57). -/
def reverbFrame (r : Rate) (i : Inst) (x : Int) (reads : List Int) : KindOut :=
  let read (k : Nat) : Int := reads.getD k 0
  let held := isHeld i
  let g := diffusionGain (i.value 6).toNat
  let a0 := allpass g (if held then 0 else read 0) (read 1)
  let a1 := allpass g (if held then 0 else a0.2.1) (read 2)
  let a2 := allpass g (if held then 0 else a1.2.1) (read 3)
  let a3 := allpass g (if held then 0 else a2.2.1) (read 4)
  let u := if held then 0 else a3.2.1
  let k := dampNow r i
  let z (n : Nat) : Int := dampStep (dampOf i (n + 5)) (read (n + 5)) k
  let h := (z 0 + z 1 + z 2 + z 3) / 2
  let acc (n : Nat) : Int := u * 32768 + feedbackInEffect r held i.ret (i.decay.gains.getD n 0) * (z n - h)
  let first := (if held then 0 else x) * 32768
  { writes := [take 0 first, a0.1, a1.1, a2.1, a3.1, take 0 (acc 0), take 0 (acc 1), take 0 (acc 2), take 0 (acc 3)],
    damps := [dampOf i 0, dampOf i 1, dampOf i 2, dampOf i 3, dampOf i 4, z 0, z 1, z 2, z 3],
    left := z 0 + z 2, right := z 1 + z 3,
    clamps := a0.2.2 + a1.2.2 + a2.2.2 + a3.2.2 + takeClamps 0 (acc 0) + takeClamps 0 (acc 1) + takeClamps 0 (acc 2) +
      takeClamps 0 (acc 3) }

/-- A DELAY (R58, R60). -/
def delayFrame (r : Rate) (i : Inst) (x : Int) (reads : List Int) : KindOut :=
  let y := dampStep (dampOf i 0) (reads.getD 0 0) (dampNow r i)
  let acc := (if isHeld i then 0 else x) * 32768 + feedbackInEffect r (isHeld i) i.ret (i.value 3) * y
  { writes := [take 0 acc], damps := [y], left := y, right := y, clamps := takeClamps 0 acc }

/-- A PINGPONG (R61, R63). -/
def pingpongFrame (r : Rate) (i : Inst) (x : Int) (reads : List Int) : KindOut :=
  let k := dampNow r i
  let y0 := dampStep (dampOf i 0) (reads.getD 0 0) k
  let y1 := dampStep (dampOf i 1) (reads.getD 1 0) k
  let fb := feedbackInEffect r (isHeld i) i.ret (i.value 4)
  let cross := crossInEffect r (isHeld i) i.ret (i.value 5) fb
  let a0 := (if isHeld i then 0 else x) * 32768 + fb * y0 + cross * y1
  let a1 := fb * y1 + cross * y0
  { writes := [take 0 a0, take 0 a1], damps := [y0, y1], left := y0, right := y1,
    clamps := takeClamps 0 a0 + takeClamps 0 a1 }

/-- The left and right coefficients of a tap from its GAIN and PAN (R64). -/
def tapCoefs (gain pan : Int) : Int × Int :=
  (Int.tdiv (Int.tdiv (32767 * (100 - pan)) 200 * gain) 32768, Int.tdiv (Int.tdiv (32767 * (100 + pan)) 200 * gain) 32768)

/-- A MULTITAP (R64, R66). -/
def multitapFrame (r : Rate) (i : Inst) (x : Int) (reads : List Int) : KindOut :=
  let n := (i.value 2).toNat
  let y := dampStep (dampOf i 0) (reads.getD (n - 1) 0) (dampNow r i)
  let acc := (if isHeld i then 0 else x) * 32768 + feedbackInEffect r (isHeld i) i.ret (i.value 3) * y
  let coefs (k : Nat) : Int × Int := tapCoefs (i.value (3 * k + 9)) (i.value (3 * k + 10))
  let left := ((List.range n).map fun k => reads.getD k 0 * (coefs k).1).sum
  let right := ((List.range n).map fun k => reads.getD k 0 * (coefs k).2).sum
  { writes := [take 0 acc], damps := [y], left := take 0 left, right := take 0 right,
    clamps := takeClamps 0 acc + takeClamps 0 left + takeClamps 0 right }

/-- The left and right voice sums by VOICES, before their takes (R67). -/
def voiceSums (voices : Int) (y : Nat → Int) : Int × Int :=
  if voices = 1 then (y 0 * 32767, y 0 * 32767)
  else if voices = 2 then (y 0 * 32767, y 1 * 32767)
  else if voices = 3 then (y 0 * 16384 + y 2 * 16384, y 1 * 32767)
  else (y 0 * 16384 + y 2 * 16384, y 1 * 16384 + y 3 * 16384)

/-- A CHORUS (R67, R70): in the CHORUS mode no line feeds back. -/
def chorusFrame (r : Rate) (i : Inst) (x : Int) (reads : List Int) : KindOut :=
  let fb := if i.choice.flange then feedbackInEffect r (isHeld i) i.ret (i.value 8) else 0
  let acc (v : Nat) : Int := (if isHeld i then 0 else x) * 32768 + fb * reads.getD v 0
  let lines := List.range i.choice.voices
  let sums := voiceSums (i.value 2) fun v => reads.getD v 0
  { writes := lines.map fun v => take 0 (acc v), damps := lines.map (dampOf i), left := take 0 sums.1,
    right := take 0 sums.2,
    clamps := (lines.map fun v => takeClamps 0 (acc v)).sum + takeClamps 0 sums.1 + takeClamps 0 sums.2 }

/-- The computation of an instance's kind. -/
def kindFrame (r : Rate) (i : Inst) (x : Int) (reads : List Int) : KindOut :=
  match i.choice.kind with
  | .reverb => reverbFrame r i x reads
  | .delay => delayFrame r i x reads
  | .pingpong => pingpongFrame r i x reads
  | .multitap => multitapFrame r i x reads
  | .chorus => chorusFrame r i x reads

/-! ## The output chain (R44 to R46, R82) -/

/-- The OUT_GAIN record in effect (R51). -/
def outGain (i : Inst) : Val :=
  match i.param 0 with
  | some p => p.value
  | none => { m := 0, e := 0 }

/-- The dip's scaling of an output (R82). -/
def dipScale (r : Rate) (i : Inst) (v : Int) : Int :=
  let n := Inst.dipLength r
  match i.dip.phase with
  | .none => v
  | .fall => Int.tdiv (v * (n - i.dip.pos : Nat)) n
  | .rise => Int.tdiv (v * i.dip.pos) n

/-- The fade's scaling of an output (R16). -/
def fadeScale (r : Rate) (i : Inst) (v : Int) : Int :=
  if i.state = .fading then Int.tdiv (v * (State.fadeLength r - i.fade : Nat)) (State.fadeLength r) else v

/-- The poison envelope's phase and step in a frame (R46). -/
def stepEnv (poisoned : Bool) (i : Inst) : Envelope :=
  let e := i.env
  match poisoned, e.phase with
  | false, .clear => e
  | false, .fall | false, .silent => { e with phase := .rise, step := 1 }
  | false, .rise => { e with step := e.step + 1 }
  | true, .fall => { e with step := e.step + 1 }
  | true, .silent => e
  | true, .clear | true, .rise => { phase := .fall, step := 1, heldL := i.outL, heldR := i.outR }

/-- An output under the poison envelope, from the value of R44 step 3 and the held value (R46). -/
def envOutput (e : Envelope) (held v : Int) : Int :=
  match e.phase with
  | .clear => v
  | .fall => Int.tdiv (held * (64 - e.step : Nat)) 64
  | .silent => 0
  | .rise => Int.tdiv (v * e.step) 64

/-! ## One frame of one instance -/

/-- The accumulator of the instance input: the sum over live and departing sends (R160). -/
def inputSum (i : Inst) (inputs : List Int) : Int :=
  ((i.sends.toList.filterMap id).map fun x => inputs.getD x.chan 0 * x.gain).sum

/-- A sample written at a ring position of a line: to the primary page, the mirror page, and the target of a copy of
either (R113, R136). -/
def writeLine (copy : Option Copy) (m : DelayMem) (l : Line) (v : Int) : DelayMem :=
  let pos := l.writePos / 1024
  let off := l.writePos % 1024
  let put (m : DelayMem) (page : Option Nat) : DelayMem :=
    match page with
    | none => m
    | some p =>
      let m := m.write (p * 1024 + off) v
      match copy with
      | some c => if c.source = p then m.write (c.target * 1024 + off) v else m
      | none => m
  put (put m l.pages[pos]?) l.mirrors[pos]?

/-- An instance's parts that a frame moves on at its end, whatever the frame computed: write positions, oscillators,
parameters, dip, sends, return, fade (R2, R40, R76, R82, R160). -/
def advanceInst (r : Rate) (now : List (BitVec 32)) (i : Inst) : Inst :=
  { i with
    lines := i.lines.map fun l => { l with writePos := (l.writePos + 1) % (l.pages.length * 1024) }
    oscs := now.map (stepOsc r i)
    params := i.params.map Param.advance
    dip := if i.dip.phase = .none then i.dip else { i.dip with pos := i.dip.pos + 1 }
    sends := i.sends.map (Option.map Path.advance)
    ret := if i.ret = 0 then 0 else i.ret + 1
    fade := if i.state = .fading then i.fade + 1 else i.fade }

/-- The decay gains worked out anew where DECAY or SIZE has moved (R39). -/
def refreshDecay (r : Rate) (i : Inst) : Inst :=
  if i.choice.kind = .reverb ∧ (i.decay.decay ≠ i.value 2 ∨ i.decay.size ≠ i.value 3) then
    { i with decay := decayOf r i.choice (i.value 2) (i.value 3) }
  else i

/-- What one frame of an instance leaves in its record and gives as damping, outputs and counts, from its input sum, its
read values and whether it is poisoned (R31, R44 to R46). -/
def outputInst (r : Rate) (i : Inst) (input : Int) (reads : List Int) (poisoned : Bool) : Inst × List Int :=
  let k := kindFrame r i (take 0 input) reads
  let g := outGain i
  let aL := k.left * g.m
  let aR := k.right * g.m
  let env := stepEnv poisoned i
  let chain (a : Int) : Int := fadeScale r i (dipScale r i (take g.e a))
  let clamps := takeClamps 0 input + k.clamps + takeClamps g.e aL + takeClamps g.e aR
  let outL := envOutput env env.heldL (chain aL)
  let outR := envOutput env env.heldR (chain aR)
  let quietNow := decide (outL.natAbs ≤ 265) && decide (outR.natAbs ≤ 265)
  ({ i with
      lines := if poisoned then i.lines else (i.lines.zip k.damps).map fun c => { c.1 with damp := c.2 }
      env := env, outL := outL, outR := outR, poisoned := poisoned
      saturation := if poisoned then i.saturation else countUp i.saturation clamps
      poison := if poisoned && !i.poisoned then countUp i.poison 1 else i.poison
      quiet := if i.state = .draining then (if quietNow then i.quiet + 1 else 0) else i.quiet },
    if poisoned then k.writes.map fun _ => 0 else k.writes)

namespace State

/-- The clock an instance is linked to. -/
def linkedClock (s : State) (i : Inst) : Option Clock := i.link.bind s.clock

/-- One frame of the instance in a slot (R4, R32, R45). POISON_OUTPUT carries the slot (log entry 62). -/
def runInst (s : State) (f : FrameIn) (inputs : List Int) (slot : Nat) : State :=
  match s.inst slot with
  | none => s
  | some i =>
    if runs i then
      let i := refreshDecay s.rate i
      let now := i.oscs.map (phaseNow (s.linkedClock i) i)
      let reads := lineReads s.rate i (now.headD 0)
      let got := touchAll f.faults i reads s
      let s := got.1
      let poisoned := got.2.any fun c => c.2.isNone
      let r := outputInst s.rate i (inputSum i inputs) (reads.map (readValue s.mem got.2 i)) poisoned
      let s := s.modMem fun m => (i.lines.zip r.2).foldl (fun m c => writeLine s.integ.copy m c.1 c.2) m
      let s := s.setInst slot (advanceInst s.rate now r.1)
      if poisoned && !i.poisoned then s.report i.owner .poisonOutput (.poisonOutput slot) else s
    else s

end State

end Sys2Proof.Machine
end

