-- ==== Sys2Proof/Machine/Frame.lean ====
section
/-! DEFINITION. One frame of the engine (R159) and the commands that belong to it: the events still due when a frame
begins, the capture and judging of lanes and word clock, the instances, the output channels, and what moves on at the
frame's end. -/
namespace Sys2Proof.Machine

/-! ## Ends of ramps, returns and envelopes (R36, R46, R76) -/

/-- The end of a return from HELD (R36). -/
def endReturn (r : Rate) (i : Inst) : Inst := if r.pick 480 960 < i.ret then { i with ret := 0 } else i

/-- The end of a fall of the poison envelope (R46). -/
def endPoisonFall (i : Inst) : Inst :=
  if i.env.phase = .fall ∧ 64 ≤ i.env.step then { i with env := { i.env with phase := .silent, step := 0 } } else i

/-- The end of a rise of the poison envelope (R46). -/
def endPoisonRise (i : Inst) : Inst :=
  if i.env.phase = .rise ∧ 64 ≤ i.env.step then { i with env := { i.env with phase := .clear, step := 0 } } else i

/-- A live send's ramp ended (R76, R160). -/
def endSendRamp (i : Inst) (pos : Nat) : Inst :=
  { i with sends := match (i.sends[pos]?).join with
      | some x => i.sends.setIfInBounds pos (some x.endRamp)
      | none => i.sends }

/-- A live route's ramp ended (R76, R164). -/
def endRouteRamp (i : Inst) (side : Side) (pos : Nat) : Inst :=
  match ((i.routes side)[pos]?).join with
  | some x => i.setRoutes side ((i.routes side).setIfInBounds pos (some x.endRamp))
  | none => i

/-- The ramp that RAMP_END names ended, where its last frame has run (R76). -/
def endRamp (i : Inst) : RampRef → Inst
  | .param n => i.modParam n Param.endRamp
  | .send pos => endSendRamp i pos
  | .route side pos => endRouteRamp i side pos

/-- Every ramp, return and envelope of an instance that has run ended. -/
def endAll (r : Rate) (i : Inst) : Inst :=
  let i := endPoisonRise (endPoisonFall (endReturn r i))
  { i with params := i.params.map Param.endRamp, sends := i.sends.map (Option.map Path.endRamp),
           left := i.left.map (Option.map Path.endRamp), right := i.right.map (Option.map Path.endRamp) }

namespace State

/-! ## Events that are due (log entry 10) -/

/-- The first oscillator's wrap: the LFO_ZERO updates take effect (R40, R41, R80). A wrap at the end of a frame starts them
with position 1 in the next (log entry 44). -/
def lfoWrap (s : State) (slot : Nat) : State :=
  s.modInst slot fun i =>
    if runs i && lfoWrapped (s.linkedClock i) i then
      (clearWrap (s.linkedClock i) i).applyUpdates s.rate (s.linkedFpb i) [.lfoZero]
    else i

/-- What ends at the end of the last frame in one slot. -/
def endSlot (s : State) (slot : Nat) : State :=
  let s := s.modInst slot (endAll s.rate)
  let s := [0, 1, 2, 3].foldl (fun s pos => s.sendDeparted slot pos) s
  let s := [Side.left, .right].foldl (fun s side => [0, 1].foldl (fun s pos => s.routeDeparted slot side pos) s) s
  let s := s.instancePrimed slot
  let s := s.drainQuiet slot
  let s := s.fadeComplete slot
  s.offerExpired slot

/-- What a coming frame starts with in one slot; the updates of a free wrap at the end of the frame before among them (R40,
R80, log entry 44). -/
def startSlot (s : State) (slot : Nat) : State :=
  let s := s.modInst slot fun i => i.params.foldl (fun i p => i.crossfadeEnd s.rate p.num) i
  let s := s.modInst slot fun i => Inst.dipEnd s.rate (Inst.dipSwitch s.rate i)
  let s := s.lfoWrap slot
  s.drainLimit slot

/-- Every occupied slot in order. -/
def overSlots (s : State) (f : State → Nat → State) : State :=
  allSlots.foldl (fun s k => if (s.inst k).isSome then f s k else s) s

/-- The failure-list entries that have run out in one bank (R117). -/
def expireBank (s : State) (b : Nat) : State :=
  match s.mem.banks[b]? with
  | some bk => bk.failures.foldl (fun s f => s.expireFailure f.page f.group) s
  | none => s

/-- The events of the end of the last frame that have not been taken, in a fixed order (log entry 10). An instance that what
was freed there admitted, and whose pages are all clean by the end of that frame, leaves PRIMING in it (R8, R116), so
INSTANCE_PRIMED comes over the slots once more. -/
def takeEnded (s : State) : State :=
  let s := atFrameEnd (fun s => (s.completeCopy.completeAppend.overSlots endSlot).overSlots instancePrimed) s
  let s := s.overSlots waitLimit
  let s := [0, 1, 2, 3].foldl lapseTap s
  let s := [0, 1, 2, 3].foldl expireBank s
  let s := s.dropVote
  allPorts.foldl (fun s p => (s.linkComesUp p).linkGoesDown p) s

/-- The events of the present frame that have not been taken, in a fixed order (log entry 10). -/
def takeStarting (s : State) (faults : List GroupFault) : State :=
  let s := [0, 1, 2, 3].foldl (fun s k => (s.loseLane k).syncLane k) s
  let s := s.loseClock.lockClock
  let s := [0, 1, 2, 3].foldl beatEvent s
  let s := s.overSlots startSlot
  (s.startCopy.startAppend).scrub faults

/-! ## Lanes (R156 to R158, R160) -/

/-- A sample under a gate of 64 steps (R160). -/
def gated (gate : Nat) (x : Int) : Int := Int.tdiv (x * gate) 64

/-- The channel values of one lane in a frame, before the clock gate (R157, R160). -/
def laneValues (n : Nat) (l : Lane) (good : Bool) (arrived : List Int) : List Int :=
  let src := if l.synced then (if good then arrived else l.last) else []
  (List.range n).map fun k => gated l.gate (src.getD k 0)

/-- The samples that arrive on lane `k` in a frame (R156). -/
def laneArrived (n : Nat) (f : FrameIn) (k : Nat) : List Int := (List.range n).map fun j => f.channels.getD (k * n + j) 0

/-- The input channel values of a frame (R157, R160). -/
def inputs (s : State) (f : FrameIn) : List Int :=
  let n := perLane s.rate
  ((List.range 4).flatMap fun k =>
    match s.lanes.inputs[k]? with
    | some l => laneValues n l (f.laneGood.toList.getD k false) (laneArrived n f k)
    | none => []).map (gated s.lanes.gate)

/-- An input lane at the end of a frame (R157). -/
def judgeLane (l : Lane) (good : Bool) (arrived : List Int) : Lane :=
  let l := { l with last := if good then arrived else l.last }
  if l.synced then
    { l with badRun := if good then 0 else min 4 (l.badRun + 1), gate := min 64 (l.gate + 1) }
  else { l with goodRun := if good then min 256 (l.goodRun + 1) else 0 }

/-- How a period of the word clock of so many picoseconds is judged: good within 2 % of the nominal frame (R158). -/
def judgePeriod (r : Rate) (len : Nat) : Period :=
  if 98 * 10 ^ 12 ≤ 100 * (len * r.hz) ∧ 100 * (len * r.hz) ≤ 102 * 10 ^ 12 then .good else .bad

/-- The periods judged at the end of a frame, in order: those that end in it, or one that is missing (R158). -/
def periodsOf (r : Rate) (lens : List Nat) : List Period := if lens = [] then [.missing] else lens.map (judgePeriod r)

/-- One period of the word clock counted (R158). A run that is complete stands until CLOCK_LOST or LOCKED takes it (log
entry 54). -/
def countPeriod (x : Lanes) (p : Period) : Lanes :=
  match x.wordClock with
  | .locked => if 4 ≤ x.bad then x else { x with bad := if p = .good then 0 else x.bad + 1 }
  | _ => if 4096 ≤ x.good then x else { x with good := if p = .good then x.good + 1 else 0 }

/-- The word clock at the end of a frame: its periods judged, and the clock gate (R158). -/
def judgeClock (r : Rate) (x : Lanes) (lens : List Nat) : Lanes :=
  let x := (periodsOf r lens).foldl countPeriod x
  { x with gate := if x.wordClock = .locked then min 64 (x.gate + 1) else x.gate - 1 }

/-- The lanes at the end of a frame (R157, R158). -/
def judgeLanes (s : State) (f : FrameIn) : State :=
  let n := perLane s.rate
  let inputs := s.lanes.inputs.mapFinIdx fun k l _ => judgeLane l (f.laneGood.toList.getD k false) (laneArrived n f k)
  { s with lanes := judgeClock s.rate { s.lanes with inputs := inputs } f.periods }

/-! ## Output channels (R165) -/

/-- What an instance's routes carry in a frame: channel and product. -/
def routed (i : Inst) : List (Nat × Int) :=
  ((i.left.toList.filterMap id).map fun x => (x.chan, i.outL * x.gain)) ++
    (i.right.toList.filterMap id).map fun x => (x.chan, i.outR * x.gain)

/-- What all instances that run carry to the channels in a frame (R165). -/
def carried' (s : State) : List (Nat × Int) :=
  allSlots.flatMap fun k =>
    match s.inst k with
    | some i => if runs i then routed i else []
    | none => []

/-- The sum of a channel (R165). -/
def channelSum (l : List (Nat × Int)) (chan : Nat) : Int := ((l.filter fun c => decide (c.1 = chan)).map Prod.snd).sum

/-- A clamp of a channel's take counted (R165). -/
def countClip (l : List (Nat × Int)) (s : State) (chan : Nat) : State :=
  match s.claim chan with
  | some c =>
    if takeClamps 0 (channelSum l chan) = 0 then s else s.setClaim chan { c with clips := countUp c.clips 1 }
  | none => s

/-- The output channels formed in a frame leave two frames later (R156, R165). -/
def formOutputs (s : State) : State :=
  let l := s.carried'
  let chans := List.range (channelCount s.rate)
  let out := chans.map fun c => take 0 (channelSum l c)
  let s := chans.foldl (countClip l) s
  { s with lanes := { s.lanes with outNow := s.lanes.outNext, outNext := out } }

/-! ## The end of a frame -/

/-- Offers and routes of an instance at the end of a frame (R19, R164). -/
def endInst (i : Inst) : Inst :=
  { i.mapRoutes Path.advance with offer := i.offer.map fun o => { o with left := o.left - 1 } }

/-- The vote's window falls by one at the end of a frame (R175). -/
def tickVote (s : State) : State :=
  { s with vote := s.vote.map fun v => if v.carried then v else { v with left := v.left - 1 } }

/-- The ports at the end of a frame: receivers judged, replies sent on, malformed requests answered (R167 to R169). -/
def tickPorts (s : State) (f : FrameIn) : State :=
  allPorts.foldl (fun s p =>
    (s.setIo p (transmit s.rate (judgeLink (f.rx.get p) (s.io p)))).answerMalformed p) s

/-- The pass over the watch entry of the page visited in the frame (R131). -/
def finishPass (s : State) : State :=
  match s.integ.passDue with
  | some page => s.watchPass page
  | none => s

/-- The INTEGRITY UNIT at the end of a frame: the append has run one frame more, and what belonged to the frame alone is
forgotten (R126, R130, R135, R140). -/
def tickInteg (s : State) : State :=
  s.modInteg fun x =>
    { x with append := x.append.map (fun a => { a with left := a.left - 1 }), counted := [], requested := [],
             visited := false, copyTried := false, passDue := none, late := false }

/-- The frame itself, once every event due before it has been taken. The instances and their reads run by rising slot (R45,
R118, log entry 56). -/
def frameBody (s : State) (f : FrameIn) : State :=
  let inputs := s.inputs f
  let s := s.copyFrame f.faults
  let s := allSlots.foldl (fun s k => s.runInst f inputs k) s
  let s := s.formOutputs
  let s := s.finishPass
  let s := s.judgeLanes f
  let s := s.overSlots fun s k => s.modInst k endInst
  let s := s.tickVote
  let s := s.tickPorts f
  let s := s.startAppend.tickInteg
  let s := s.pageClear 4
  let s := s.freeChannels
  { s with clocks := s.clocks.map advanceClock, frame := s.frame + 1 }

/-- One frame (R159), with the events still due before it taken first, and a restart that is due after the end of the
last frame (R176, log entry 10). -/
def runFrame (s : State) (f : FrameIn) : State :=
  (s.takeEnded.engineRestart.takeStarting f.faults).frameBody f

end State

end Sys2Proof.Machine
end

