-- ==== Sys2Proof/Machine/Requests.lean ====
section
/-! DEFINITION. The meanings of the requests, one per row of the catalogue (R171): each is the taking of that request at
its port. A request that its port does not take (the link DOWN, RESET asserted, a vote carried) changes nothing. -/
namespace Sys2Proof.Machine

/-- IDENTIFY (R172): the part, the straps and the pool; nothing changes. -/
def execIdentify (h : Hdr) (s : State) : Host.Outcome State Fault Refusal :=
  .next (s.request 0x01 h fun s => s.identifyRequest h.port)

/-- BUDGET (R123): the state of the pool; nothing changes. -/
def execBudget (h : Hdr) (s : State) : Host.Outcome State Fault Refusal :=
  .next (s.request 0x02 h fun s => s.budgetRequest h.port)

/-- STATUS (R26): the record of a slot; nothing changes. -/
def execStatus (h : Hdr) (slot : Nat) (s : State) : Host.Outcome State Fault Refusal :=
  .next (s.request 0x03 h fun s => s.statusRequest slot)

/-- MAP (R124): the pages of a line; nothing changes. -/
def execMap (h : Hdr) (slot line : Nat) (list : Field PageList) (start : Nat) (s : State) :
    Host.Outcome State Fault Refusal :=
  .next (s.request 0x04 h fun s => s.mapRequest slot line list start)

/-- CREATE (R6, R7). -/
def execCreate (h : Hdr) (slot : SlotArg) (form : CreateForm) (s : State) : Host.Outcome State Fault Refusal :=
  .next (s.request 0x10 h fun s => s.createRequest h.port slot form)

/-- RELEASE (R12, R13, R16, R17). -/
def execRelease (h : Hdr) (slot : Nat) (mode : Field RelMode) (drain : Option Nat) (s : State) :
    Host.Outcome State Fault Refusal :=
  .next (s.request 0x11 h fun s => s.releaseRequest h.port slot mode drain)

/-- HOLD (R10). -/
def execHold (h : Hdr) (slot : Nat) (s : State) : Host.Outcome State Fault Refusal :=
  .next (s.request 0x12 h fun s => s.holdRequest h.port slot)

/-- UNHOLD (R11). -/
def execUnhold (h : Hdr) (slot : Nat) (s : State) : Host.Outcome State Fault Refusal :=
  .next (s.request 0x13 h fun s => s.unholdRequest h.port slot)

/-- SHARE (R18). -/
def execShare (h : Hdr) (slot : Nat) (on : Field Bool) (s : State) : Host.Outcome State Fault Refusal :=
  .next (s.request 0x14 h fun s => s.shareRequest h.port slot on)

/-- GIVE (R19). -/
def execGive (h : Hdr) (slot : Nat) (target : Field Port) (s : State) : Host.Outcome State Fault Refusal :=
  .next (s.request 0x15 h fun s => s.giveRequest h.port slot target)

/-- ACCEPT (R20). -/
def execAccept (h : Hdr) (slot : Nat) (s : State) : Host.Outcome State Fault Refusal :=
  .next (s.request 0x16 h fun s => s.acceptRequest h.port slot)

/-- DECLINE (R21). -/
def execDecline (h : Hdr) (slot : Nat) (s : State) : Host.Outcome State Fault Refusal :=
  .next (s.request 0x17 h fun s => s.declineRequest h.port slot)

/-- SET (R73 to R87). -/
def execSet (h : Hdr) (slot : Nat) (form : SetForm) (s : State) : Host.Outcome State Fault Refusal :=
  .next (s.request 0x20 h fun s => s.setRequest h.port slot form)

/-- SEND_SET (R161). -/
def execSendSet (h : Hdr) (slot pos chan : Nat) (gain : Int) (ramp : Nat) (s : State) :
    Host.Outcome State Fault Refusal :=
  .next (s.request 0x21 h fun s => s.sendSetRequest h.port slot pos chan gain ramp)

/-- SEND_CLEAR (R161). -/
def execSendClear (h : Hdr) (slot pos : Nat) (s : State) : Host.Outcome State Fault Refusal :=
  .next (s.request 0x22 h fun s => s.sendClearRequest h.port slot pos)

/-- CLAIM_OUTPUT (R162). -/
def execClaimOutput (h : Hdr) (chan : Nat) (mode : Field ClaimMode) (s : State) : Host.Outcome State Fault Refusal :=
  .next (s.request 0x23 h fun s => s.claimRequest h.port chan mode)

/-- RELEASE_OUTPUT (R163). -/
def execReleaseOutput (h : Hdr) (chan : Nat) (s : State) : Host.Outcome State Fault Refusal :=
  .next (s.request 0x24 h fun s => s.releaseOutputRequest h.port chan)

/-- ROUTE_SET (R164). -/
def execRouteSet (h : Hdr) (slot : Nat) (out : Field Side) (pos chan : Nat) (gain : Int)
    (ramp : Nat) (s : State) :
    Host.Outcome State Fault Refusal :=
  .next (s.request 0x25 h fun s => s.routeSetRequest h.port slot out pos chan gain ramp)

/-- ROUTE_CLEAR (R164). -/
def execRouteClear (h : Hdr) (slot : Nat) (out : Field Side) (pos : Nat) (s : State) :
    Host.Outcome State Fault Refusal :=
  .next (s.request 0x26 h fun s => s.routeClearRequest h.port slot out pos)

/-- TEMPO_CLAIM (R93). -/
def execTempoClaim (h : Hdr) (clock : Nat) (s : State) : Host.Outcome State Fault Refusal :=
  .next (s.request 0x30 h fun s => s.tempoClaimRequest h.port clock)

/-- TEMPO_RELEASE (R93). -/
def execTempoRelease (h : Hdr) (clock : Nat) (s : State) : Host.Outcome State Fault Refusal :=
  .next (s.request 0x31 h fun s => s.tempoReleaseRequest h.port clock)

/-- TEMPO_SET (R94, R88). -/
def execTempoSet (h : Hdr) (clock : Nat) (tempo : Option Nat) (s : State) : Host.Outcome State Fault Refusal :=
  .next (s.request 0x32 h fun s => s.tempoSetRequest h.port clock tempo)

/-- TAP (R98, R100, R101). -/
def execTap (h : Hdr) (clock : Nat) (s : State) : Host.Outcome State Fault Refusal :=
  .next (s.request 0x33 h fun s => s.tapRequest h.port clock)

/-- METER (R95). -/
def execMeter (h : Hdr) (clock beats : Nat) (s : State) : Host.Outcome State Fault Refusal :=
  .next (s.request 0x34 h fun s => s.meterRequest h.port clock beats)

/-- TAP_LINE (R99). -/
def execTapLine (h : Hdr) (clock : Nat) (s : State) : Host.Outcome State Fault Refusal :=
  .next (s.request 0x35 h fun s => s.tapLineRequest h.port clock)

/-- LINK_TEMPO (R102, R103, R81, R89). -/
def execLinkTempo (h : Hdr) (slot : Nat) (clock : Option Nat) (s : State) : Host.Outcome State Fault Refusal :=
  .next (s.request 0x36 h fun s => s.linkTempoRequest h.port slot clock)

/-- RECALL_BEGIN (R142). -/
def execRecallBegin (h : Hdr) (number : Nat) (cond : Field Cond) (clock : Option Nat) (ramp : Nat) (s : State) :
    Host.Outcome State Fault Refusal :=
  .next (s.request 0x40 h fun s => s.beginRequest h.port number cond clock ramp)

/-- RECALL_ITEM (R143). -/
def execRecallItem (h : Hdr) (item : RecallItem) (s : State) : Host.Outcome State Fault Refusal :=
  .next (s.request 0x41 h fun s => s.itemRequest h.port item)

/-- RECALL_COMMIT (R145 to R153). -/
def execRecallCommit (h : Hdr) (s : State) : Host.Outcome State Fault Refusal :=
  .next (s.request 0x42 h fun s => s.commitRequest h.port)

/-- RECALL_ABANDON (R144). -/
def execRecallAbandon (h : Hdr) (s : State) : Host.Outcome State Fault Refusal :=
  .next (s.request 0x43 h fun s => s.abandonRequest h.port)

/-- RECALL_RESULT (R155): nothing changes. -/
def execRecallResult (h : Hdr) (s : State) : Host.Outcome State Fault Refusal :=
  .next (s.request 0x44 h fun s => s.resultRequest h.port)

/-- NOTICE_MODE (R182). -/
def execNoticeMode (h : Hdr) (mode : Field NoticeMode) (base : Nat) (s : State) : Host.Outcome State Fault Refusal :=
  .next (s.request 0x50 h fun s => s.modeRequest h.port mode base)

/-- NOTICE_MASK (R179). -/
def execNoticeMask (h : Hdr) (classes : List (Field NoticeClass)) (errors : List (Field ErrorName)) (s : State) :
    Host.Outcome State Fault Refusal :=
  .next (s.request 0x51 h fun s => s.maskRequest h.port classes errors)

/-- NOTICE_TAKE (R180, R181). -/
def execNoticeTake (h : Hdr) (s : State) : Host.Outcome State Fault Refusal :=
  .next (s.request 0x52 h fun s => s.takeRequest h.port)

/-- END_SERVICE (R182). -/
def execEndService (h : Hdr) (s : State) : Host.Outcome State Fault Refusal :=
  .next (s.request 0x53 h fun s => s.endServiceRequest h.port)

/-- ERROR_READ (R184): nothing changes. -/
def execErrorRead (h : Hdr) (s : State) : Host.Outcome State Fault Refusal :=
  .next (s.request 0x54 h fun s => s.errorReadRequest h.port)

/-- ERROR_CLEAR (R184). -/
def execErrorClear (h : Hdr) (s : State) : Host.Outcome State Fault Refusal :=
  .next (s.request 0x55 h fun s => s.errorClearRequest h.port)

/-- PORT_CLEAR (R174). -/
def execPortClear (h : Hdr) (s : State) : Host.Outcome State Fault Refusal :=
  .next (s.request 0x60 h fun s => s.portClearRequest h.port)

/-- RESTART (R175): a vote that this request carries makes the restart wait for the replies that are being sent (R176). -/
def execRestart (h : Hdr) (s : State) : Host.Outcome State Fault Refusal :=
  let t := s.request 0x61 h fun s => s.restartRequest h.port
  .next (if t.carried && !s.carried then t.markAwaited else t)

end Sys2Proof.Machine
end

