-- ==== Sys2Proof/Machine/Events.lean ====
section
/-! DEFINITION. The meanings of the commands that are not requests: levels and edges on the lines, the frame, and the
engine's own events. An event acts where it is due and changes nothing otherwise (log entry 10); none acts while RESET is
asserted but the start of the engine and the levels at its pins (R173). -/
namespace Sys2Proof.Machine

/-- ENGINE_RESTART (R176): the restart, once a vote has carried and no reply is awaited. -/
def execEngineRestart (s : State) : Host.Outcome State Fault Refusal :=
  .next (s.whileRunning State.engineRestart)

/-- ENGINE_START (R173): with the straps as they are read, and the nonvolatile list as it is stored or as given. -/
def execEngineStart (straps : Straps) (nv : Option NvImage) (s : State) : Host.Outcome State Fault Refusal :=
  .next (s.engineStart straps nv)

/-- RESET_ASSERTED (R173, R140). -/
def execResetAsserted (s : State) : Host.Outcome State Fault Refusal :=
  .next (s.assertReset)

/-- FRAME_RECEIVED (R168, R169): characters received on a port. -/
def execFrameReceived (port : Port) (chars : List Byte) (s : State) : Host.Outcome State Fault Refusal :=
  .next (s.whileRunning fun s => s.receive port chars)

/-- LINK_UP (R167): once the port's run is complete. -/
def execLinkUp (port : Port) (s : State) : Host.Outcome State Fault Refusal :=
  .next (s.whileRunning fun s => s.linkComesUp port)

/-- LINK_DOWN (R177): once the port's silence is complete. -/
def execLinkDown (port : Port) (s : State) : Host.Outcome State Fault Refusal :=
  .next (s.whileRunning fun s => s.linkGoesDown port)

/-- TAP_LINE_EDGE (R98): the footswitch closes. -/
def execTapLineEdge (s : State) : Host.Outcome State Fault Refusal :=
  .next (s.whileRunning State.tapEdge)

/-- CHAIN_IN_CHANGE (R183): a new level at CHAIN IN, which ATTENTION and CHAIN OUT follow. -/
def execChainInChange (port : Port) (asserted : Bool) (s : State) : Host.Outcome State Fault Refusal :=
  .next (s.setNp port { s.np port with chainIn := asserted })

/-- FRAME (R159): one sample period. -/
def execFrame (f : FrameIn) (s : State) : Host.Outcome State Fault Refusal :=
  .next (s.whileRunning fun s => s.runFrame f)

/-- INSTANCE_PRIMED (R8), at the end of the frame that cleared the last page. -/
def execInstancePrimed (slot : Nat) (s : State) : Host.Outcome State Fault Refusal :=
  .next (s.whileRunning (State.atFrameEnd fun s => s.instancePrimed slot))

/-- DRAIN_QUIET (R14), at the end of the frame that completed the quiet run. -/
def execDrainQuiet (slot : Nat) (s : State) : Host.Outcome State Fault Refusal :=
  .next (s.whileRunning (State.atFrameEnd fun s => s.drainQuiet slot))

/-- DRAIN_LIMIT (R15), in the frame that reaches the limit. -/
def execDrainLimit (slot : Nat) (s : State) : Host.Outcome State Fault Refusal :=
  .next (s.whileRunning fun s => s.drainLimit slot)

/-- FADE_COMPLETE (R16), at the end of the fade's last frame. -/
def execFadeComplete (slot : Nat) (s : State) : Host.Outcome State Fault Refusal :=
  .next (s.whileRunning (State.atFrameEnd fun s => s.fadeComplete slot))

/-- OFFER_EXPIRED (R21), at the end of the frame in which the window ends. -/
def execOfferExpired (slot : Nat) (s : State) : Host.Outcome State Fault Refusal :=
  .next (s.whileRunning (State.atFrameEnd fun s => s.offerExpired slot))

/-- RAMP_END (R76): a ramp whose last frame has run is removed. -/
def execRampEnd (slot : Nat) (which : RampRef) (s : State) : Host.Outcome State Fault Refusal :=
  .next (s.whileRunning fun s => s.modInst slot fun i => endRamp i which)

/-- RETURN_RAMP_END (R36): a return whose last frame has run ends. -/
def execReturnRampEnd (slot : Nat) (s : State) : Host.Outcome State Fault Refusal :=
  .next (s.whileRunning fun s => s.modInst slot (endReturn s.rate))

/-- DIP_SWITCH (R82): after the last frame of a fall. -/
def execDipSwitch (slot : Nat) (s : State) : Host.Outcome State Fault Refusal :=
  .next (s.whileRunning fun s => s.modInst slot (Inst.dipSwitch s.rate))

/-- DIP_END (R84): after the last frame of a rise. -/
def execDipEnd (slot : Nat) (s : State) : Host.Outcome State Fault Refusal :=
  .next (s.whileRunning fun s => s.modInst slot (Inst.dipEnd s.rate))

/-- CROSSFADE_END (R86, R87): after the last frame of a crossfade. -/
def execCrossfadeEnd (slot param : Nat) (s : State) : Host.Outcome State Fault Refusal :=
  .next (s.whileRunning fun s => s.modInst slot fun i => i.crossfadeEnd s.rate param)

/-- POISON_FALL_END (R46): after the 64th frame of a fall. -/
def execPoisonFallEnd (slot : Nat) (s : State) : Host.Outcome State Fault Refusal :=
  .next (s.whileRunning fun s => s.modInst slot endPoisonFall)

/-- POISON_RISE_END (R46): after the 64th frame of a rise. -/
def execPoisonRiseEnd (slot : Nat) (s : State) : Host.Outcome State Fault Refusal :=
  .next (s.whileRunning fun s => s.modInst slot endPoisonRise)

/-- LFO_WRAP (R40, R41, R80): once the first oscillator has wrapped. -/
def execLfoWrap (slot : Nat) (s : State) : Host.Outcome State Fault Refusal :=
  .next (s.whileRunning fun s => s.lfoWrap slot)

/-- BEAT_EVENT (R96, R97): the beat event that the present frame carries is delivered. -/
def execBeatEvent (clock : Nat) (s : State) : Host.Outcome State Fault Refusal :=
  .next (s.whileRunning fun s => s.beatEvent clock)

/-- LAST_TAP_LAPSE (R100). -/
def execLastTapLapse (clock : Nat) (s : State) : Host.Outcome State Fault Refusal :=
  .next (s.whileRunning fun s => s.lapseTap clock)

/-- WAIT_LIMIT (R151). -/
def execWaitLimit (slot : Nat) (s : State) : Host.Outcome State Fault Refusal :=
  .next (s.whileRunning fun s => s.waitLimit slot)

/-- SCRUB_VISIT (R126 to R129): the visit that falls in the present frame, with the groups that do not read CLEAN. -/
def execScrubVisit (faults : List GroupFault) (s : State) : Host.Outcome State Fault Refusal :=
  .next (s.whileRunning fun s => s.scrub faults)

/-- FAILURE_ENTRY_EXPIRY (R117). -/
def execFailureEntryExpiry (page group : Nat) (s : State) : Host.Outcome State Fault Refusal :=
  .next (s.whileRunning fun s => s.expireFailure page group)

/-- COPY_START (R135). -/
def execCopyStart (s : State) : Host.Outcome State Fault Refusal :=
  .next (s.whileRunning State.startCopy)

/-- COPY_COMPLETE (R137), at the end of copy frame 16. -/
def execCopyComplete (s : State) : Host.Outcome State Fault Refusal :=
  .next (s.whileRunning (State.atFrameEnd fun s => s.completeCopy))

/-- NV_APPEND_START (R140). -/
def execNvAppendStart (s : State) : Host.Outcome State Fault Refusal :=
  .next (s.whileRunning State.startAppend)

/-- NV_APPEND_COMPLETE (R140). -/
def execNvAppendComplete (s : State) : Host.Outcome State Fault Refusal :=
  .next (s.whileRunning State.completeAppend)

/-- VOTE_DROPPED (R175). -/
def execVoteDropped (s : State) : Host.Outcome State Fault Refusal :=
  .next (s.whileRunning State.dropVote)

/-- SEND_DEPARTED (R161). -/
def execSendDeparted (slot pos : Nat) (s : State) : Host.Outcome State Fault Refusal :=
  .next (s.whileRunning fun s => s.sendDeparted slot pos)

/-- ROUTE_DEPARTED (R163, R164). -/
def execRouteDeparted (slot : Nat) (side : Side) (pos : Nat) (s : State) : Host.Outcome State Fault Refusal :=
  .next (s.whileRunning fun s => s.routeDeparted slot side pos)

/-- LANE_LOST (R157). -/
def execLaneLost (lane : Nat) (s : State) : Host.Outcome State Fault Refusal :=
  .next (s.whileRunning fun s => s.loseLane lane)

/-- LANE_SYNCED (R157). -/
def execLaneSynced (lane : Nat) (s : State) : Host.Outcome State Fault Refusal :=
  .next (s.whileRunning fun s => s.syncLane lane)

/-- CLOCK_LOST (R158). -/
def execClockLost (s : State) : Host.Outcome State Fault Refusal :=
  .next (s.whileRunning State.loseClock)

/-- LOCKED (R158). -/
def execLocked (s : State) : Host.Outcome State Fault Refusal :=
  .next (s.whileRunning State.lockClock)

end Sys2Proof.Machine
end

