-- ==== Sys2Proof/Machine/Dispatch.lean ====
section
/-! DEFINITION. Which meaning runs for each command, one arm per row of spec/opcode_table.json. -/
namespace Sys2Proof.Machine
open Sys2Proof

/-- The effect of a command on everything but the queue. -/
def exec (i : Instr) (s : State) : Host.Outcome State Fault Refusal :=
  match i with
  | .identify h => Sys2Proof.Machine.execIdentify h s
  | .budget h => Sys2Proof.Machine.execBudget h s
  | .status h slot => Sys2Proof.Machine.execStatus h slot s
  | .map h slot line list start => Sys2Proof.Machine.execMap h slot line list start s
  | .create h slot form => Sys2Proof.Machine.execCreate h slot form s
  | .release h slot mode drain => Sys2Proof.Machine.execRelease h slot mode drain s
  | .hold h slot => Sys2Proof.Machine.execHold h slot s
  | .unhold h slot => Sys2Proof.Machine.execUnhold h slot s
  | .share h slot on => Sys2Proof.Machine.execShare h slot on s
  | .give h slot target => Sys2Proof.Machine.execGive h slot target s
  | .accept h slot => Sys2Proof.Machine.execAccept h slot s
  | .decline h slot => Sys2Proof.Machine.execDecline h slot s
  | .set h slot form => Sys2Proof.Machine.execSet h slot form s
  | .sendSet h slot pos chan gain ramp => Sys2Proof.Machine.execSendSet h slot pos chan gain ramp s
  | .sendClear h slot pos => Sys2Proof.Machine.execSendClear h slot pos s
  | .claimOutput h chan mode => Sys2Proof.Machine.execClaimOutput h chan mode s
  | .releaseOutput h chan => Sys2Proof.Machine.execReleaseOutput h chan s
  | .routeSet h slot out pos chan gain ramp => Sys2Proof.Machine.execRouteSet h slot out pos chan gain ramp s
  | .routeClear h slot out pos => Sys2Proof.Machine.execRouteClear h slot out pos s
  | .tempoClaim h clock => Sys2Proof.Machine.execTempoClaim h clock s
  | .tempoRelease h clock => Sys2Proof.Machine.execTempoRelease h clock s
  | .tempoSet h clock tempo => Sys2Proof.Machine.execTempoSet h clock tempo s
  | .tap h clock => Sys2Proof.Machine.execTap h clock s
  | .meter h clock beats => Sys2Proof.Machine.execMeter h clock beats s
  | .tapLine h clock => Sys2Proof.Machine.execTapLine h clock s
  | .linkTempo h slot clock => Sys2Proof.Machine.execLinkTempo h slot clock s
  | .recallBegin h number cond clock ramp => Sys2Proof.Machine.execRecallBegin h number cond clock ramp s
  | .recallItem h item => Sys2Proof.Machine.execRecallItem h item s
  | .recallCommit h => Sys2Proof.Machine.execRecallCommit h s
  | .recallAbandon h => Sys2Proof.Machine.execRecallAbandon h s
  | .recallResult h => Sys2Proof.Machine.execRecallResult h s
  | .noticeMode h mode base => Sys2Proof.Machine.execNoticeMode h mode base s
  | .noticeMask h classes errors => Sys2Proof.Machine.execNoticeMask h classes errors s
  | .noticeTake h => Sys2Proof.Machine.execNoticeTake h s
  | .endService h => Sys2Proof.Machine.execEndService h s
  | .errorRead h => Sys2Proof.Machine.execErrorRead h s
  | .errorClear h => Sys2Proof.Machine.execErrorClear h s
  | .portClear h => Sys2Proof.Machine.execPortClear h s
  | .restart h => Sys2Proof.Machine.execRestart h s
  | .engineRestart => Sys2Proof.Machine.execEngineRestart s
  | .engineStart straps nv => Sys2Proof.Machine.execEngineStart straps nv s
  | .resetAsserted => Sys2Proof.Machine.execResetAsserted s
  | .frameReceived port chars => Sys2Proof.Machine.execFrameReceived port chars s
  | .linkUp port => Sys2Proof.Machine.execLinkUp port s
  | .linkDown port => Sys2Proof.Machine.execLinkDown port s
  | .tapLineEdge => Sys2Proof.Machine.execTapLineEdge s
  | .chainInChange port asserted => Sys2Proof.Machine.execChainInChange port asserted s
  | .frame f => Sys2Proof.Machine.execFrame f s
  | .instancePrimed slot => Sys2Proof.Machine.execInstancePrimed slot s
  | .drainQuiet slot => Sys2Proof.Machine.execDrainQuiet slot s
  | .drainLimit slot => Sys2Proof.Machine.execDrainLimit slot s
  | .fadeComplete slot => Sys2Proof.Machine.execFadeComplete slot s
  | .offerExpired slot => Sys2Proof.Machine.execOfferExpired slot s
  | .rampEnd slot which => Sys2Proof.Machine.execRampEnd slot which s
  | .returnRampEnd slot => Sys2Proof.Machine.execReturnRampEnd slot s
  | .dipSwitch slot => Sys2Proof.Machine.execDipSwitch slot s
  | .dipEnd slot => Sys2Proof.Machine.execDipEnd slot s
  | .crossfadeEnd slot param => Sys2Proof.Machine.execCrossfadeEnd slot param s
  | .poisonFallEnd slot => Sys2Proof.Machine.execPoisonFallEnd slot s
  | .poisonRiseEnd slot => Sys2Proof.Machine.execPoisonRiseEnd slot s
  | .lfoWrap slot => Sys2Proof.Machine.execLfoWrap slot s
  | .beatEvent clock => Sys2Proof.Machine.execBeatEvent clock s
  | .lastTapLapse clock => Sys2Proof.Machine.execLastTapLapse clock s
  | .waitLimit slot => Sys2Proof.Machine.execWaitLimit slot s
  | .scrubVisit faults => Sys2Proof.Machine.execScrubVisit faults s
  | .failureEntryExpiry page group => Sys2Proof.Machine.execFailureEntryExpiry page group s
  | .copyStart => Sys2Proof.Machine.execCopyStart s
  | .copyComplete => Sys2Proof.Machine.execCopyComplete s
  | .nvAppendStart => Sys2Proof.Machine.execNvAppendStart s
  | .nvAppendComplete => Sys2Proof.Machine.execNvAppendComplete s
  | .voteDropped => Sys2Proof.Machine.execVoteDropped s
  | .sendDeparted slot pos => Sys2Proof.Machine.execSendDeparted slot pos s
  | .routeDeparted slot side pos => Sys2Proof.Machine.execRouteDeparted slot side pos s
  | .laneLost lane => Sys2Proof.Machine.execLaneLost lane s
  | .laneSynced lane => Sys2Proof.Machine.execLaneSynced lane s
  | .clockLost => Sys2Proof.Machine.execClockLost s
  | .locked => Sys2Proof.Machine.execLocked s

end Sys2Proof.Machine
end

