-- ==== Sys2Proof/Safety.lean ====
section
/-! DEFINITION. The words that statements about the engine are made in: what a request answered, what it left alone, how
sends and routes move, what a freed instance leaves, and the laws that every step keeps. -/
namespace Sys2Proof.Machine

/-! ## Replies -/

/-- The reply a port formed last: the one that waits, else the one being sent. -/
def State.lastReply (t : State) (p : Port) : Option Reply :=
  match (t.io p).answer with
  | some r => some r
  | none => (t.io p).sending.map Sending.reply

/-- The request of `h` with that code was answered so (R168, R170). -/
def State.Answered (t : State) (h : Hdr) (code : Byte) (status : Status) (reason : Option Reason) (body : ReplyBody) :
    Prop :=
  t.lastReply h.port =
    some { tag := h.tag, code := code + 0x80, status := status, reason := reason, body := body }

/-- DONE, or CLAMPED where a field was clamped. -/
def doneOr (names : List ClampName) : Status := if names = [] then .done else .clamped

/-- The header and the code of a command that is a request; none for a line, a frame and an event (R171). -/
def requestOf : Instr → Option (Hdr × Byte)
  | .identify h => some (h, 0x01)
  | .budget h => some (h, 0x02)
  | .status h _ => some (h, 0x03)
  | .map h _ _ _ _ => some (h, 0x04)
  | .create h _ _ => some (h, 0x10)
  | .release h _ _ _ => some (h, 0x11)
  | .hold h _ => some (h, 0x12)
  | .unhold h _ => some (h, 0x13)
  | .share h _ _ => some (h, 0x14)
  | .give h _ _ => some (h, 0x15)
  | .accept h _ => some (h, 0x16)
  | .decline h _ => some (h, 0x17)
  | .set h _ _ => some (h, 0x20)
  | .sendSet h _ _ _ _ _ => some (h, 0x21)
  | .sendClear h _ _ => some (h, 0x22)
  | .claimOutput h _ _ => some (h, 0x23)
  | .releaseOutput h _ => some (h, 0x24)
  | .routeSet h _ _ _ _ _ _ => some (h, 0x25)
  | .routeClear h _ _ _ => some (h, 0x26)
  | .tempoClaim h _ => some (h, 0x30)
  | .tempoRelease h _ => some (h, 0x31)
  | .tempoSet h _ _ => some (h, 0x32)
  | .tap h _ => some (h, 0x33)
  | .meter h _ _ => some (h, 0x34)
  | .tapLine h _ => some (h, 0x35)
  | .linkTempo h _ _ => some (h, 0x36)
  | .recallBegin h _ _ _ _ => some (h, 0x40)
  | .recallItem h _ => some (h, 0x41)
  | .recallCommit h => some (h, 0x42)
  | .recallAbandon h => some (h, 0x43)
  | .recallResult h => some (h, 0x44)
  | .noticeMode h _ _ => some (h, 0x50)
  | .noticeMask h _ _ => some (h, 0x51)
  | .noticeTake h => some (h, 0x52)
  | .endService h => some (h, 0x53)
  | .errorRead h => some (h, 0x54)
  | .errorClear h => some (h, 0x55)
  | .portClear h => some (h, 0x60)
  | .restart h => some (h, 0x61)
  | .engineRestart | .engineStart _ _ | .resetAsserted | .frameReceived _ _ | .linkUp _ | .linkDown _
  | .tapLineEdge | .chainInChange _ _ | .frame _ | .instancePrimed _ | .drainQuiet _ | .drainLimit _
  | .fadeComplete _ | .offerExpired _ | .rampEnd _ _ | .returnRampEnd _ | .dipSwitch _ | .dipEnd _
  | .crossfadeEnd _ _ | .poisonFallEnd _ | .poisonRiseEnd _ | .lfoWrap _ | .beatEvent _ | .lastTapLapse _
  | .waitLimit _ | .scrubVisit _ | .failureEntryExpiry _ _ | .copyStart | .copyComplete | .nvAppendStart
  | .nvAppendComplete | .voteDropped | .sendDeparted _ _ | .routeDeparted _ _ _ | .laneLost _ | .laneSynced _
  | .clockLost | .locked => none

/-! ## What a command leaves alone -/

/-- A port but for its queue and its replies. -/
def PortIo.rest (x : PortIo) : PortIo := { x with queue := [], held := [], sending := none, answer := none }

/-- A request of `h` touched no port but its own, and there only the queue and the replies. -/
def PortsKept (h : Hdr) (s t : State) : Prop :=
  (∀ q, q ≠ h.port → t.io q = s.io q) ∧ (t.io h.port).rest = (s.io h.port).rest

/-- A request of `h` changed nothing but its port's queue and replies. -/
def Unchanged (h : Hdr) (s t : State) : Prop := PortsKept h s t ∧ { t with ports := s.ports } = s

/-- The request `c` of `h` is refused for a reason: nothing else changes. -/
def Refuses (c : Instr) (h : Hdr) (code : Byte) (why : Reason) (s : State) : Prop :=
  ∃ t, exec c s = .next t ∧ Unchanged h s t ∧ t.Answered h code .refused (some why) .empty

/-- The request `c` of `h` answers and changes nothing else. -/
def OnlyAnswers (c : Instr) (h : Hdr) (code : Byte) (status : Status) (reason : Option Reason) (body : ReplyBody)
    (s : State) : Prop :=
  ∃ t, exec c s = .next t ∧ Unchanged h s t ∧ t.Answered h code status reason body

/-- Every slot but one is as it was. -/
def OtherSlots (s t : State) (slot : Nat) : Prop := ∀ k, k ≠ slot → t.inst k = s.inst k

/-- A request of `h` changed, beside its port, only the record in one slot. -/
def OnlySlot (h : Hdr) (s t : State) (slot : Nat) : Prop :=
  PortsKept h s t ∧ { t with ports := s.ports, insts := s.insts } = s ∧ OtherSlots s t slot

/-- An event changed only the record in one slot, from `i` to `j`. -/
def SlotBecomes (s t : State) (slot : Nat) (j : Inst) : Prop :=
  t.inst slot = some j ∧ { t with insts := s.insts } = s ∧ OtherSlots s t slot

/-- Every other port's notice state is as it was. -/
def OtherNotices (s t : State) (p : Port) : Prop := ∀ q, q ≠ p → t.np q = s.np q

/-- Every clock but one is as it was. -/
def OtherClocks (s t : State) (k : Nat) : Prop := ∀ j, j ≠ k → t.clock j = s.clock j

/-- Every output channel but one is as it was, and of the lanes only claims changed. -/
def OtherClaims (s t : State) (chan : Nat) : Prop :=
  { t.lanes with claims := s.lanes.claims } = s.lanes ∧ ∀ k, k ≠ chan → t.claim k = s.claim k

/-- A request of `h` changed, beside its port, only that port's staging area or record. -/
def OtherRecalls (h : Hdr) (s t : State) : Prop :=
  { t with ports := s.ports, recalls := s.recalls } = s ∧ ∀ q, q ≠ h.port → t.rc q = s.rc q

/-! ## Parameters -/

/-- A parameter set at once (R78). -/
def Param.Jumps (p q : Param) (v : Val) : Prop :=
  q = { p with prev := v, value := v, target := v, ramp := none, xfade := none, waiting := none }

/-- A parameter that starts to ramp over `n` frames to a target, in its first frame, from the value of the frame before; at
once where `n` is 0 (R76, R77). -/
def Param.Moves (p q : Param) (target : Val) (n : Nat) : Prop :=
  q = if n = 0 then { p with value := target, target := target, ramp := none }
      else { p with value := rampValue p.prev target n 1, target := target,
                    ramp := some { start := p.prev, len := n, pos := 1 } }

/-- A time parameter that starts a crossfade over `n` frames to the delay `d`, from the delay of the frame before (R86). -/
def Param.Crosses (p q : Param) (d : Int) (n : Nat) : Prop :=
  q = { p with value := { m := d, e := 0 }, target := { m := d, e := 0 }, ramp := none,
               xfade := some { old := p.prev.m, new := d, len := n, pos := 1 } }

/-- A change of a time parameter starts: a crossfade, 480/960 frames where its ramp is 0, or a glide (R85, R86). -/
def Inst.DelayStarts (r : Rate) (i : Inst) (p q : Param) (d : Int) (n : Nat) : Prop :=
  (i.crossfades r = true → p.Crosses q d (if n = 0 then r.pick 480 960 else n)) ∧
  (i.crossfades r = false → p.Moves q { m := d, e := 0 } n)

/-- A change of a time parameter (R78, R85 to R87): at once in PRIMING; else the waiting change while a crossfade runs, the
start of a change otherwise. -/
def Inst.DelayChanges (r : Rate) (i : Inst) (p q : Param) (d : Int) (n : Nat) (retarget : Bool) : Prop :=
  (i.state = .priming → p.Jumps q { m := d, e := 0 }) ∧
  (i.state ≠ .priming → p.xfade ≠ none →
    q = { p with waiting := some { target := d, ramp := n, retarget := retarget } }) ∧
  (i.state ≠ .priming → p.xfade = none → i.DelayStarts r p q d n)

/-- A time parameter whose delay in effect stays where it stands (R53, R89): a ramp ends at the value of the frame before,
and no change waits (log entries 20 and 47). -/
def Param.Stands (p q : Param) : Prop :=
  (p.ramp = none → q = { p with waiting := none }) ∧
  ∀ g, p.ramp = some g → q = { p with value := p.prev, target := p.prev, ramp := none, waiting := none }

/-- No crossfade of a parameter waits for its end. -/
def Param.Settled (p : Param) : Prop := ∀ x, p.xfade = some x → x.pos ≤ x.len

/-- Every parameter but one is as it was, and the rest of the record but for the pending updates. -/
def OnlyParam (i j : Inst) (n : Nat) : Prop :=
  { j with params := i.params, updates := i.updates } = i ∧ ∀ k, k ≠ n → j.param k = i.param k

/-- The pending updates without those of one parameter (R77). -/
def UpdatesLess (i j : Inst) (n : Nat) : Prop := j.updates = i.updates.filter fun u => decide (u.param ≠ n)

/-- An instance that takes a SET from `h` (R73 steps 3 and 4). -/
def TakesSet (h : Hdr) (i : Inst) : Prop :=
  (i.owner = h.port ∨ i.shared = true) ∧ (i.state = .priming ∨ i.state = .running ∨ i.state = .held)

/-- A condition under which a SET acts at once: NOW, or one that cannot occur at the instance (R80). -/
def ActsNow (i : Inst) (c : Cond) : Prop :=
  c = .now ∨ ((c = .beat ∨ c = .bar) ∧ i.link = none) ∨ (c = .lfoZero ∧ oscCount i.choice = 0)

/-- The pending list has a place for a SET of a parameter, which one with the condition NOW does not need (R73 step 6). -/
def HasRoom (i : Inst) (c : Cond) (n : Nat) : Prop :=
  c = .now ∨ i.updates.length < 8 ∨ ∃ u, u ∈ i.updates ∧ u.param = n

/-- The clamp of the condition, where a conditional SET acts at once (R80). -/
def condNames (c : Cond) : List ClampName := if c = .now then [] else [.condition]

/-- The ramp of a SET in milliseconds as accepted (R74). -/
def rampTaken (sp : PSpec) (ramp : Nat) : Nat :=
  if ramp < sp.minRamp then sp.minRamp else if 5000 < ramp then 5000 else ramp

/-- The set of a dip with the value of a discrete parameter put in, in place of one that is there (R84). -/
def PutIn (l m : List (Nat × Int)) (n : Nat) (x : Int) : Prop :=
  (n, x) ∈ m ∧ (∀ c, c ∈ m → c.1 = n → c.2 = x) ∧ ∀ c, c.1 ≠ n → (c ∈ m ↔ c ∈ l)

/-- A DISCRETE parameter takes a value in a frame that runs (R83, R84): a fall begins where the value changes, else it joins
the switch set of a fall or the next set of a rise. -/
def Inst.DipTakes (i j : Inst) (n : Nat) (x : Int) : Prop :=
  (i.dip.phase = .none → j.dip =
    if i.value n = x then i.dip else { phase := .fall, pos := 1, switch := [(n, x)], next := [] }) ∧
  (i.dip.phase = .fall → { j.dip with switch := i.dip.switch } = i.dip ∧ PutIn i.dip.switch j.dip.switch n x) ∧
  (i.dip.phase = .rise → { j.dip with next := i.dip.next } = i.dip ∧ PutIn i.dip.next j.dip.next n x)

/-- A CONTINUOUS parameter takes a change that starts in a frame, over `n` frames, at the FPB of the linked clock where
there is one (R53, R75 to R78, R85 to R87). -/
def Inst.ParamTakes (r : Rate) (fpb : Option Nat) (i : Inst) (sp : PSpec) (p q : Param) (v : Accepted) (n : Nat) : Prop :=
  match v with
  | .gain g => (i.state = .priming → p.Jumps q g) ∧ (i.state ≠ .priming → p.Moves q g n)
  | .free x =>
    (sp.form = .samples ∨ sp.form = .millis ∨ sp.form = .base →
      i.DelayChanges r { p with division := none } q (keptValue r sp.form x) n false) ∧
    (sp.form ≠ .samples → sp.form ≠ .millis → sp.form ≠ .base →
      (i.state = .priming ∨ p.division ≠ none → Param.Jumps { p with division := none } q { m := x, e := 0 }) ∧
      (i.state ≠ .priming → p.division = none → p.Moves q { m := x, e := 0 } n))
  | .division code =>
    (sp.form = .samples ∨ sp.form = .millis ∨ sp.form = .base →
      (∀ b, fpb = some b →
        i.DelayChanges r { p with division := some code } q (syncedDelay b code (largestDelay r sp) : Nat) n false) ∧
      (fpb = none → Param.Stands { p with division := some code } q)) ∧
    (sp.form ≠ .samples → sp.form ≠ .millis → sp.form ≠ .base →
      q = { p with division := some code, target := p.value, ramp := none })

/-- A change of parameter `n` acts on a record as a SET with the condition NOW does, and on nothing else of it. -/
def Inst.Takes (r : Rate) (fpb : Option Nat) (i j : Inst) (n : Nat) (v : Accepted) (frames : Nat) : Prop :=
  { j with params := i.params, dip := i.dip } = i ∧ (∀ k, k ≠ n → j.param k = i.param k) ∧
  (paramSpec r i.choice n = none → j = i) ∧
  ∀ sp p, paramSpec r i.choice n = some sp → i.param n = some p →
    (∀ x, v = .free x → sp.discrete = true → i.state ≠ .priming → j.params = i.params ∧ i.DipTakes j n x) ∧
    (∀ x, v = .free x → sp.discrete = true → i.state = .priming →
      j.dip = i.dip ∧ ∃ q, j.param n = some q ∧ p.Jumps q { m := x, e := 0 }) ∧
    (sp.discrete = false ∨ (∀ x, v ≠ .free x) →
      j.dip = i.dip ∧ ∃ q, j.param n = some q ∧ i.ParamTakes r fpb sp p q v frames)

/-- Every pending update with one of the conditions has left the list and has acted, in list order (R80). -/
def Inst.UpdatesTaken (r : Rate) (fpb : Option Nat) (i j : Inst) (conds : List Cond) : Prop :=
  ∃ (due : List Update) (v : Nat → Inst), due = i.updates.filter (fun u => decide (u.cond ∈ conds)) ∧
    v 0 = { i with updates := i.updates.filter fun u => decide (u.cond ∉ conds) } ∧
    (∀ k u, due[k]? = some u → (v k).Takes r fpb (v (k + 1)) u.param u.value (r.ms u.ramp)) ∧ j = v due.length

/-! ## Sends and routes -/

/-- A ramp of a gain over `n` frames to an aim, in its first frame, from the gain of the frame before (R76, R160). -/
def Path.Ramps (x y : Path) (aim : Int) (n : Nat) : Prop :=
  y = { x with gain := x.before + Int.tdiv (aim - x.before) n,
               ramp := some { start := x.before, target := aim, len := n, pos := 1 } }

/-- Live sends ramp over `n` frames to their aims; empty and departing positions stay (R160). -/
def SendsRamp (n : Nat) (aim : Path → Int) (a b : Vector (Option Path) 4) : Prop :=
  ∀ k, k < 4 →
    (a[k]? = some none → b[k]? = some none) ∧
    (∀ x, a[k]? = some (some x) → x.departing = true → b[k]? = some (some x)) ∧
    (∀ x, a[k]? = some (some x) → x.departing = false → ∃ y, b[k]? = some (some y) ∧ x.Ramps y (aim x) n)

/-- A live path that departs: marked so, its gain on a ramp to zero over `n` frames (R161, R164). -/
def Path.Departs (x y : Path) (n : Nat) : Prop := ∃ z, x.Ramps z 0 n ∧ y = { z with departing := true }

/-- The routes that a test names depart where they are live; the others stay (R163, R164). -/
def RoutesDepart (n : Nat) (test : Path → Bool) (a b : Vector (Option Path) 2) : Prop :=
  ∀ k, k < 2 →
    (a[k]? = some none → b[k]? = some none) ∧
    (∀ x, a[k]? = some (some x) → (x.departing = true ∨ test x = false) → b[k]? = some (some x)) ∧
    (∀ x, a[k]? = some (some x) → x.departing = false → test x = true →
      ∃ y, b[k]? = some (some y) ∧ x.Departs y n)

/-! ## Leaving RUNNING and HELD -/

/-- What an instance keeps as it enters DRAINING or FADING (R13, R16, R72): its sends ramp to zero, its pending updates,
its next set and its offer are gone, a rise whose last frame has run having ended first (R84), and no waiting change is
left but a tempo retarget. -/
def LetsGo (r : Rate) (n : Nat) (i j : Inst) : Prop :=
  SendsRamp n (fun _ => 0) i.sends j.sends ∧ j.updates = [] ∧ j.offer = none ∧
    j.dip = { (i.dipEnd r).dip with next := [] } ∧
    (∀ k p, i.param k = some p → ∃ q, j.param k = some q ∧ { q with waiting := p.waiting } = p ∧
      q.waiting = p.waiting.filter Waiting.retarget)

/-- An instance record but for what `LetsGo` and the change of state touch. -/
def Inst.core (i : Inst) : Inst :=
  { i with
    state := .running, sends := Vector.replicate 4 none, updates := [], offer := none, params := [],
    dip := { phase := .none, pos := 0, switch := [], next := [] }, drainStart := 0, drainLimit := 0, quiet := 0, fade := 0,
    byLimit := false, ret := 0 }

/-- A port's notice state after an offer on an instance is cancelled (R22): raised at giver and target where UP. -/
def OfferTold (s : State) (slot : Nat) (i : Inst) (q : Port) : NoticePort :=
  match i.offer with
  | some o =>
    if (q = i.owner ∨ q = o.target) ∧ s.linkUp q = true then
      (s.np q).raise .handover { detail := .cancelled slot, frame := s.frame }
    else s.np q
  | none => s.np q

/-- Port `q` has had a HANDOVER notice CANCELLED for each slot that `told` names (R22): the detail is that of one of them
(log entry 63). -/
def CancelTold (s t : State) (q : Port) (told : Nat → Bool) (f : FrameNo) : Prop :=
  ∀ n, n = (List.range 32).countP told →
    (n = 0 → (t.np q).classes.get NoticeClass.handover.idx = (s.np q).classes.get NoticeClass.handover.idx) ∧
    (1 ≤ n → ∃ k, told k = true ∧ (t.np q).classes.get NoticeClass.handover.idx =
      { pending := true, detail := some { detail := .cancelled k, frame := f },
        count := min 255 (((s.np q).classes.get NoticeClass.handover.idx).count + n) })

/-- Giver and target of an offer are two ports. -/
def Inst.OfferApart (i : Inst) : Prop := ∀ o, i.offer = some o → o.target ≠ i.owner

/-! ## An instance becomes FREE -/

/-- What is left when an instance becomes FREE while none waits (R17): the slot is FREE, other records keep all but a
tag, its charge is taken back, its clock's count falls, and each of its pages is FREE and not clean in an OK bank and
WITHDRAWN in a FAILED one (R112); in an OK bank the source of a copy is RETIRED (R138), and a page queued for migration
is retired as a FREE one, or owed where no spare is left (R133, R134). -/
def Freed (s t : State) (slot : Nat) (i : Inst) : Prop :=
  t.inst slot = none ∧
  (∀ k, k ≠ slot → (t.inst k).map (fun j => { j with tag := none }) = (s.inst k).map (fun j => { j with tag := none })) ∧
  t.alloc = s.alloc.uncharge i.owner i.pages i.units ∧
  (∀ k c, s.clock k = some c → t.clock k =
    some (if i.link = some k then { c with linked := c.linked.set i.owner (c.linked.get i.owner - 1) } else c)) ∧
  (∀ p, p ∈ State.instPages i → p < 8192 → t.mem.page p ∈ [.free false, .retired, .withdrawn]) ∧
  ((State.instPages i).Nodup → (∀ p, p ∈ State.instPages i → p ∉ s.mem.spares ∧ ∀ c, s.integ.copy = some c → c.target ≠ p) →
    ∀ p, p ∈ State.instPages i → p < 8192 →
      (s.mem.bankFailed (p / 2048) = true → t.mem.page p = .withdrawn) ∧
      (s.mem.bankFailed (p / 2048) = false →
        ((∃ c, s.integ.copy = some c ∧ c.source = p) → t.mem.page p = .retired) ∧
        ((∀ c, s.integ.copy = some c → c.source ≠ p) →
          ((∀ q, q ∈ s.integ.queue → q.page ≠ p) → t.mem.page p = .free false) ∧
          ((∃ q, q ∈ s.integ.queue ∧ q.page = p) →
            t.mem.page p = .retired ∨ (t.mem.page p = .free false ∧ p ∈ t.integ.owed)))))

/-- The INSTANCE class at a port raised once more since `s`, with a detail and the frame of the raising (R178). -/
def RaisedOnce (s t : State) (p : Port) (c : NoticeClass) (d : Detail) (f : FrameNo) : Prop :=
  (t.np p).classes.get c.idx =
    { pending := true, detail := some { detail := d, frame := f },
      count := min 255 (((s.np p).classes.get c.idx).count + 1) }

/-- The sum of a charge over a port's PRIMING instances. -/
def State.primingOf (s : State) (p : Port) (f : Inst → Nat) : Nat :=
  ((List.range 32).map fun k => match s.inst k with
    | some i => if i.owner = p ∧ i.state = .priming then f i else 0
    | none => 0).sum

/-! ## Clocks -/

/-- The TEMPO notices of a change that leaves clock `k` as `c` (R104): at each port with a linked instance, its link UP,
other than the port that made the change. -/
def TempoTold (s t : State) (k : Nat) (c : Clock) (cause : TempoCause) (source : TempoSource) : Prop :=
  ∀ q, t.np q =
    if 1 ≤ c.linked.get q ∧ source ≠ .port q ∧ s.linkUp q = true then
      (s.np q).raise .tempo { detail := .tempo k cause source c.tempo c.beats, frame := s.frame }
    else s.np q

/-- A beat event, a bar event, both or neither, of clock `k` reached the linked instances, from `f` of their records to
those of `t`: their pending updates took effect at the FPB `fpb` (R80, R97). -/
def BeatReached (s t : State) (k fpb : Nat) (beat bar : Bool) (f : Inst → Inst) : Prop :=
  ∀ slot, t.inst slot = (s.inst slot).map fun i =>
    if i.link = some k then
      (f i).applyUpdates s.rate (some fpb) ((if beat then [Cond.beat] else []) ++ if bar then [Cond.bar] else [])
    else i

/-- A linked instance as a tap or a METER leaves clock `c` as `d` (R41, R101): where the position in the bar has moved
backward, the oscillators that follow it see a wrap (log entry 65). -/
def SeesMove (c d : Clock) (i : Inst) : Inst :=
  if d.beat < c.beat ∨ (d.beat = c.beat ∧ 0 < c.phase) then i.turnBack else i

/-- A clock with its beat restarted by a tap in the present frame (R101): at a phase past the half the beat moves on, and
a frame that carries a beat event already carries no other. -/
def Clock.Restarts (c d : Clock) : Prop :=
  d.phase = 0 ∧
  (c.beatNow = true → d.beat = c.beat ∧ d.beatNow = c.beatNow ∧ d.barNow = c.barNow) ∧
  (c.beatNow = false →
    d.beat = (if 2 * c.phase < c.fpb then c.beat else if c.beat < c.beats then c.beat + 1 else 1) ∧
    d.beatNow = true ∧ (d.barNow = true ↔ d.beat = 1))

/-- What a tap on clock `k` does (R98, R100, R101), by the frames since the last tap: nothing below 9,600/19,200; a new
series above 72,000/144,000 and where there was none; an interval more between, the oldest of four given up, with the
tempo of the series, a retarget and TEMPO notices where the FPB moves. A beat moved backward is a wrap of the synced
oscillators (log entry 65). -/
def TapEffect (s t : State) (k : Nat) (c : Clock) (source : TempoSource) (what : TapOutcome) : Prop :=
  match what with
  | .ignored => t.clock k = some c ∧ t.insts = s.insts ∧ t.notices = s.notices
  | .restarted => ∃ d, t.clock k = some d ∧ c.Restarts d ∧ d.series = [] ∧ d.lastTap = some s.frame ∧
      { d with phase := c.phase, beat := c.beat, beatNow := c.beatNow, barNow := c.barNow, series := c.series,
               lastTap := c.lastTap } = c ∧
      BeatReached s t k c.fpb (!c.beatNow) (!c.beatNow && d.barNow) (SeesMove c d) ∧ t.notices = s.notices
  | .appended => ∃ d f, t.clock k = some d ∧ c.Restarts d ∧ c.lastTap = some f ∧ d.lastTap = some s.frame ∧
      d.series = (if c.series.length < 4 then c.series else c.series.drop 1) ++ [s.since f] ∧
      d.tempo = tempoOf s.rate d.series ∧ d.fpb = fpbOf s.rate d.tempo ∧
      { d with phase := c.phase, beat := c.beat, beatNow := c.beatNow, barNow := c.barNow, series := c.series,
               lastTap := c.lastTap, tempo := c.tempo, fpb := c.fpb } = c ∧
      BeatReached s t k d.fpb (!c.beatNow) (!c.beatNow && d.barNow)
        (fun i => if d.fpb = c.fpb then SeesMove c d i else (SeesMove c d i).retarget s.rate d.fpb) ∧
      (d.fpb = c.fpb → t.notices = s.notices) ∧ (d.fpb ≠ c.fpb → TempoTold s t k d .tap source)

/-- What becomes of a tap, by the frames since the last one (R100). -/
def TapIs (s : State) (c : Clock) (what : TapOutcome) : Prop :=
  match what with
  | .ignored => ∃ f, c.lastTap = some f ∧ s.since f < s.rate.pick 9600 19200
  | .restarted => c.lastTap = none ∨ ∃ f, c.lastTap = some f ∧ s.rate.pick 72000 144000 < s.since f
  | .appended => ∃ f, c.lastTap = some f ∧ s.rate.pick 9600 19200 ≤ s.since f ∧ s.since f ≤ s.rate.pick 72000 144000

/-! ## Records ARMED on a clock -/

/-- The record of port `p` is ARMED on clock `k` and its condition occurs (R97, R147). -/
def State.Due (s : State) (k : Nat) (beat bar : Bool) (p : Port) (r : Record) : Prop :=
  (s.rc p).record = some r ∧ r.state = .armed ∧ r.clock = some k ∧
    ((r.cond = .beat ∧ beat = true) ∨ (r.cond ≠ .beat ∧ bar = true))

/-- A beat event, a bar event, both or neither, of clock `k` at the record of port `p`: it is applied where it is due. -/
def RecordReached (k : Nat) (beat bar : Bool) (p : Port) (s t : State) : Prop :=
  (∀ r, s.Due k beat bar p r → t = s.applyRecord p r) ∧ ((∀ r, ¬s.Due k beat bar p r) → t = s)

/-- The same at the records of all ports, in the order A, B, C (log entry 52). -/
def RecordsReached (s t : State) (k : Nat) (beat bar : Bool) : Prop :=
  ∃ a b, RecordReached k beat bar .a s a ∧ RecordReached k beat bar .b a b ∧ RecordReached k beat bar .c b t

/-! ## The course of a frame -/

/-- A FRAME with the operand `f` takes `s` to `t` (R159): `u` is the state once what was due has been taken (log entry 10),
and `v k` the one before slot `k` runs, the groups of a copy frame copied first (log entries 53 and 56). -/
def FrameRuns (s : State) (f : FrameIn) (t u : State) (v : Nat → State) : Prop :=
  exec (.frame f) s = .next t ∧ u = s.takeEnded.engineRestart.takeStarting f.faults ∧ v 0 = u.copyFrame f.faults ∧
    ∀ k, k < 32 → v (k + 1) = (v k).runInst f (u.inputs f) k

/-- The value of an input channel in a frame (R157, R160): the sample that its lane carries, or carried in its last good
frame, none from a lane that is LOST, under the gate of the lane and then the gate of the word clock. -/
def State.channelIn (s : State) (f : FrameIn) (chan : Nat) : Int :=
  let n := s.rate.pick 16 8
  match s.lanes.inputs[chan / n]?, f.laneGood[chan / n]? with
  | some l, some good =>
    let x := if l.synced then (if good then f.channels.getD chan 0 else l.last.getD (chan % n) 0) else 0
    Int.tdiv (Int.tdiv (x * l.gate) 64 * s.lanes.gate) 64
  | _, _ => 0

/-- The sum over an instance's live and departing sends of the channel value times the gain in effect (R160). -/
def Inst.hears (i : Inst) (value : Nat → Int) : Int :=
  ((List.range 4).map fun n => match (i.sends[n]?).join with | some x => value x.chan * x.gain | none => 0).sum

/-- One frame of a port's transmit line that is idle: a held QUEUE_FULL reply begins to be sent, else the reply that waits
(R169). -/
def PortIo.LineTakes (x y : PortIo) : Prop :=
  (∀ q rest, x.held = q :: rest → y = { x with held := rest, sending := some { sent := 0, reply :=
    { tag := q.1, code := q.2 + 0x80, status := .refused, reason := some .queueFull, body := .empty } } }) ∧
  (x.held = [] → y = { x with answer := none, sending := x.answer.map fun z => { reply := z, sent := 0 } })

/-- One frame of a port's transmit line (R167, R169): the reply being sent moves on by 6.25 or 3.125 characters, and one
sent to its end gives way to the next (log entry 13). -/
def PortIo.LineMoves (r : Rate) (x y : PortIo) : Prop :=
  (x.sending = none → x.LineTakes y) ∧
  ∀ z n, x.sending = some z → n = z.sent + r.pick 50 25 →
    (n < 8 * (replyFrame z.reply).length → y = { x with sending := some { z with sent := n } }) ∧
    (8 * (replyFrame z.reply).length ≤ n →
      PortIo.LineTakes { x with sending := none, awaited := x.awaited && x.answer.isSome } y)

/-! ## One frame of an instance -/

/-- `q` is `n` divided by `d`, rounded to nearest with halves up. -/
def Nearest (q n d : Nat) : Prop := 2 * d * q ≤ 2 * n + d ∧ 2 * n + d < 2 * d * (q + 1)

/-- `d` is the base delay moved by the depth times the oscillator value, held inside a line of capacity `cap` (R43). -/
def Modulates (base depth v : Int) (cap d : Nat) : Prop :=
  ∃ q : Int, 32768 * q ≤ depth * v ∧ depth * v < 32768 * (q + 1) ∧
    (d : Int) = if base + q < 256 then 256 else if 256 * ((cap : Int) - 1) < base + q then 256 * ((cap : Int) - 1)
      else base + q

/-- A read of a line at the delay of time parameter `n`, each head's delay as `mod` gives it: one head, or while a crossfade
runs the old and the new one by the weight of the new (R43, R86). -/
def Inst.ReadsTime (i : Inst) (x : LineRead) (line n : Nat) (mod : Int → Nat) : Prop :=
  x.line = line ∧ ∀ p, i.param n = some p →
    (p.xfade = none → x.heads = [mod p.value.m] ∧ x.weight = 0) ∧
    ∀ c, p.xfade = some c → x.heads = [mod c.old, mod c.new] ∧ x.weight = Int.tdiv (32768 * c.pos) c.len

/-- The addresses that a line's write reaches in a frame: its write position in its primary and its mirror page, and the
same place in the target of a copy of either (R2, R113, R136). -/
def Line.stores (copy : Option Copy) (l : Line) : List Nat :=
  ([l.pages[l.writePos / 1024]?, l.mirrors[l.writePos / 1024]?].filterMap id).flatMap fun p =>
    (p * 1024 + l.writePos % 1024) :: match copy with
      | some c => if c.source = p then [c.target * 1024 + l.writePos % 1024] else []
      | none => []

/-- The sample at a ring position of a line, from its primary page; 0 beyond its pages (R2, R113). -/
def DelayMem.ring (m : DelayMem) (l : Line) (n : Nat) : Int :=
  match l.pages[n / 1024]? with
  | some p => m.sample (p * 1024 + n % 1024)
  | none => 0

/-- The value of a head at a delay in 1/256 sample, where nothing is poisoned: between the samples that many whole samples,
and one more, before the write position (R33). -/
def DelayMem.head (m : DelayMem) (l : Line) (d : Nat) : Int :=
  interpolate (m.ring l (ringPos l (d / 256))) (m.ring l (ringPos l (d / 256 + 1))) (d % 256)

/-- The value of a read, where nothing is poisoned: its one head, or its two heads by their weights in a crossfade (R33,
R86). -/
def DelayMem.read (m : DelayMem) (i : Inst) (x : LineRead) : Int :=
  match i.lines[x.line]?, x.heads with
  | some l, [d] => m.head l d
  | some l, [d, e] => take 0 (m.head l d * (32768 - x.weight) + m.head l e * x.weight)
  | _, _ => 0

/-- The groups that the reads of an instance touch, read by read: the page, the page at the same place of the mirror list,
and the group (R32, R113, R115). -/
def Inst.touched (i : Inst) (reads : List LineRead) : List (Nat × Option Nat × Nat) :=
  reads.flatMap fun x => match i.lines[x.line]? with
    | none => []
    | some l => x.heads.flatMap fun d => [ringPos l (d / 256), ringPos l (d / 256 + 1)].filterMap fun n =>
        (l.pages[n / 1024]?).map fun p => (p, l.mirrors[n / 1024]?, n % 1024 / 8)

/-- The groups that an instance's reads touch are read, each once and in the order of the reads, from `s` to `u`; `src` gives
for a page and a group the page that its samples come from, none where the read is poisoned (R113 to R115, log entry 56). -/
def GroupsAreRead (faults : List GroupFault) (i : Inst) (reads : List LineRead) (s u : State)
    (groups : List (Nat × Option Nat × Nat)) (src : Nat → Nat → Option Nat) : Prop :=
  groups.Sublist (i.touched reads) ∧ (groups.map fun g => (g.1, g.2.2)).Nodup ∧
  (∀ g, g ∈ i.touched reads → ∃ x, x ∈ groups ∧ x.1 = g.1 ∧ x.2.2 = g.2.2) ∧
  ∃ w : Nat → State, w 0 = s ∧ w groups.length = u ∧
    ∀ k g, groups[k]? = some g → readGroup faults (w k) g.1 g.2.1 g.2.2 = (w (k + 1), src g.1 g.2.2)

/-- The sample at a ring position of a line, from the page that `src` gives for its group; none where its read is poisoned
(R115). -/
def DelayMem.ringFrom (m : DelayMem) (src : Nat → Nat → Option Nat) (l : Line) (n : Nat) : Option Int :=
  (l.pages[n / 1024]?).bind fun p => (src p (n % 1024 / 8)).map fun q => m.sample (q * 1024 + n % 1024)

/-- The value of a head at a delay in 1/256 sample, zero where its read is poisoned (R33, R45). -/
def DelayMem.headFrom (m : DelayMem) (src : Nat → Nat → Option Nat) (l : Line) (d : Nat) : Int :=
  match m.ringFrom src l (ringPos l (d / 256)), m.ringFrom src l (ringPos l (d / 256 + 1)) with
  | some a, some b => interpolate a b (d % 256)
  | _, _ => 0

/-- The value of a read: its one head, or its two heads by their weights in a crossfade (R33, R86). -/
def DelayMem.readFrom (m : DelayMem) (src : Nat → Nat → Option Nat) (i : Inst) (x : LineRead) : Int :=
  match i.lines[x.line]?, x.heads with
  | some l, [d] => m.headFrom src l d
  | some l, [d, e] => take 0 (m.headFrom src l d * (32768 - x.weight) + m.headFrom src l e * x.weight)
  | _, _ => 0

/-- What the instance in a slot adds to the sum of an output channel in a frame (R165). -/
def State.adds (s : State) (chan slot : Nat) : Int :=
  match s.inst slot with
  | some i =>
    if i.state ∈ [.running, .held, .draining, .fading] then
      (((i.left.toList.filterMap id).filter fun x => decide (x.chan = chan)).map fun x => i.outL * x.gain).sum +
        (((i.right.toList.filterMap id).filter fun x => decide (x.chan = chan)).map fun x => i.outR * x.gain).sum
    else 0
  | none => 0

/-! ## Pages -/

/-- An error of a page as its owner has it, or every port where it has none (R129, R184). -/
def PageTold (s t : State) (page : Nat) (e : ErrorName) (d : Detail) : Prop :=
  ∀ p, t.np p = if s.pageOwner page = some p ∨ s.pageOwner page = none then
    (s.np p).report e { detail := d, frame := s.frame } else s.np p

/-- The samples of a memory where one group has become others' or zero: `x a` at an address of the group. -/
def GroupBecomes (m n : DelayMem) (page group : Nat) (x : Nat → Int) : Prop :=
  ∀ a, n.sample a = if a / 8 = page * 128 + group then x a else m.sample a

/-- A CORRECTED outcome of a page (R114, R128, R129): recorded at its owner, or at every port where it has none, with the
slot and the page (log entry 66), and then counted. -/
def CorrectedTold (s t : State) (page : Nat) : Prop :=
  ∃ u : State, t = u.countCorrected page ∧ { u with notices := s.notices } = s ∧
    ∀ p, u.np p = if s.pageOwner page = some p ∨ s.pageOwner page = none then
      (s.np p).record { name := .corrected, detail := .corrected (s.pageSlot page) page, frame := s.frame } else s.np p

/-- An UNCORRECTABLE outcome of a page in an OK bank (R115, R128, R129): its group enters the failure list, its retirement
is requested, and the error is told to its owner, or to every port where it has none, with the slot, the page and whether
the read was rescued. -/
def UncorrectableTold (s t : State) (page group : Nat) (rescued : Bool) : Prop :=
  ∃ v : State, v = (s.enterFailure page group).requestRetirement page ∧ { t with notices := v.notices } = v ∧
    ∀ p, t.np p = if s.pageOwner page = some p ∨ s.pageOwner page = none then
      (v.np p).report .uncorrectable { detail := .uncorrectable (s.pageSlot page) page rescued, frame := s.frame }
    else v.np p

/-- The samples of one group of a page have become `x a`, and nothing else of the state has changed. -/
def GroupWritten (s t : State) (page group : Nat) (x : Nat → Int) : Prop :=
  { t with mem := s.mem } = s ∧ { t.mem with samples := s.mem.samples } = s.mem ∧ GroupBecomes s.mem t.mem page group x

/-! ## Recalls -/

/-- The DRAINING instances of a port that a recall may force to fade: no members of its transition (R150). -/
def MayForce (s : State) (p : Port) (number slot : Nat) : Prop :=
  ∃ i, s.inst slot = some i ∧ i.owner = p ∧ i.state = .draining ∧ i.tag ≠ some number

/-! ## Laws every step keeps -/

/-- Charges beyond the reserves stay within the common shares (R120). -/
def State.ChargesFit (s : State) : Prop :=
  s.alloc.pageExcess s.straps ≤ pageCommon s.straps ∧ s.alloc.unitExcess s.straps ≤ unitCommon s.straps

/-- A clock as R90, R96 and R100 bound it: tempo, FPB, phase, beat and meter, and the intervals of its taps. -/
def Clock.Fits (r : Rate) (c : Clock) : Prop :=
  4000 ≤ c.tempo ∧ c.tempo ≤ 30000 ∧ c.fpb = fpbOf r c.tempo ∧ c.phase < c.fpb ∧ 1 ≤ c.beats ∧ c.beats ≤ 16 ∧
  1 ≤ c.beat ∧ c.beat ≤ c.beats ∧ c.series.length ≤ 4 ∧
  ∀ n, n ∈ c.series → r.pick 9600 19200 ≤ n ∧ n ≤ r.pick 72000 144000

/-- Every clock is within its bounds, and exactly one holds the TAP line (R90). -/
def State.ClocksFit (s : State) : Prop :=
  (∀ k c, s.clock k = some c → c.Fits s.rate) ∧
  ∃ k, k < 4 ∧ ∀ j c, s.clock j = some c → (c.tapLine = true ↔ j = k)

/-- A notice state in order (R178, R181, R182): the in-service stack strictly in priority order, every count at most 255,
a vector base that NOTICE_MODE can set. -/
def NoticePort.Ordered (n : NoticePort) : Prop :=
  n.stack.Pairwise (fun a b => a.idx < b.idx) ∧ (∀ c : NoticeClass, (n.classes.get c.idx).count ≤ 255) ∧
  (∀ e : ErrorName, n.next.get e.idx ≤ 255) ∧ n.base ≤ 248 ∧ n.base % 8 = 0

/-- Every port's notice state is in order. -/
def State.NoticesOrdered (s : State) : Prop := ∀ p, (s.np p).Ordered

/-- How many of the 2,048 pages of a bank are in states that a test names (R107, R123). -/
def DelayMem.pagesIn (m : DelayMem) (b : Nat) (test : PageState → Bool) : Nat :=
  (List.range 2048).countP fun n => test (m.page (2048 * b + n))

/-- The items that are staged and recorded have their forms (R143), and those of an ARMED record name no new slot twice
(R145). -/
def State.RecallsFormed (s : State) : Prop :=
  ∀ p, (∀ x item, (s.rc p).staging = some x → item ∈ x.items → itemFormOk item = true) ∧
    ∀ r, (s.rc p).record = some r → (∀ y, y ∈ r.items → itemFormOk y.item = true) ∧
      (r.state = .armed → ((r.items.map RecordItem.item).filterMap itemNewSlot).Nodup)

/-- The page that stands at a place of a line's lists. -/
def State.pageAt (s : State) (h : Holder) : Option Nat :=
  (s.inst h.slot).bind fun i => (i.lines[h.line]?).bind fun l =>
    match h.list with
    | .primary => l.pages[h.pos]?
    | .mirror => l.mirrors[h.pos]?

/-- What the state of each page says of it, and what says it of the page (R107, R109, R112, R118): an ALLOCATED page stands
at its one place of one line's lists, a SPARE page in the pool, a RETIRED one in the retirement list (R140), the target of
a copy is that of the copy in progress (R135), FREE, SPARE and target pages lie in OK banks, WITHDRAWN ones in FAILED
banks. There is no page above 8,191. -/
def State.PagesPlaced (s : State) : Prop :=
  (∀ p h, s.mem.page p = .allocated h ↔ s.pageAt h = some p) ∧
  (∀ p, (s.mem.page p).isSpare = true ↔ p ∈ s.mem.spares) ∧ s.mem.spares.Nodup ∧
  (∀ p, s.mem.page p = .retired ↔ p ∈ s.integ.retired) ∧ s.integ.retired.Nodup ∧
  (∀ p q, s.mem.page p = .target q ↔ ∃ c, s.integ.copy = some c ∧ c.target = p ∧ c.source = q) ∧
  (∀ p, (s.mem.page p).isFree = true ∨ (s.mem.page p).isSpare = true ∨ (∃ q, s.mem.page p = .target q) →
    s.mem.bankFailed (p / 2048) = false) ∧
  (∀ p, s.mem.page p = .withdrawn → s.mem.bankFailed (p / 2048) = true) ∧ ∀ p, 8192 ≤ p → s.mem.page p = .withdrawn

/-- The two pages of each position of a mirrored line lie in different banks, and a line that is not mirrored has no mirror
list (R111). -/
def State.MirrorsApart (s : State) : Prop :=
  ∀ k i l, s.inst k = some i → l ∈ i.lines → (i.choice.mirror = false → l.mirrors = []) ∧
    (i.choice.mirror = true → l.mirrors.length = l.pages.length) ∧
    ∀ (n p q : Nat), l.pages[n]? = some p → l.mirrors[n]? = some q → p / 2048 ≠ q / 2048

/-- The SPARE and RETIRED pages and the target of a copy number at most 64, and 64 while every bank is OK (R140). -/
def State.SparesCounted (s : State) : Prop :=
  ∀ n, n = s.mem.spares.length + s.integ.retired.length + (if s.integ.copy = none then 0 else 1) →
    n ≤ 64 ∧ ((∀ b, b < 4 → s.mem.bankFailed b = false) → n = 64)

/-- What the migration works on (R134, R135, R139): the pages queued lie in OK banks, and so does the source of the copy,
which stands ALLOCATED at the place kept for it, its partner in another bank than the target. -/
def State.MigrationFits (s : State) : Prop :=
  (∀ q, q ∈ s.integ.queue → s.mem.bankFailed (q.page / 2048) = false) ∧
  ∀ c, s.integ.copy = some c → s.mem.page c.source = .allocated c.holder ∧
    s.mem.bankFailed (c.source / 2048) = false ∧ ∀ q, s.partner c.holder = some q → q / 2048 ≠ c.target / 2048

/-- The pool of pages in order: the page table with the lists beside it, the mirrors, the count of 64, the migration, with
the model's canonical table, recalls of right forms, and an instance's lines: none while it is WAITING (R9), else as many
as its kind has (R48). -/
def State.PoolKept (s : State) : Prop :=
  s.mem.tableWf = true ∧ s.RecallsFormed ∧
  (∀ k i, s.inst k = some i → i.lines.length = if i.state = .waiting then 0 else lineCount i.choice) ∧
  s.PagesPlaced ∧ s.MirrorsApart ∧ s.SparesCounted ∧ s.MigrationFits

/-- Each clock's linked count of a port is the number of that port's instances that are linked to it, every link is to a
clock there is (R103), and a WAITING instance has no link (R9). -/
def State.LinksCounted (s : State) : Prop :=
  s.RecallsFormed ∧
  (∀ k i, s.inst k = some i → (∀ n, i.link = some n → n < 4) ∧
    (i.state = .waiting → i.link = none ∧ ∀ x n, i.kept = some x → x.link = some n → n < 4)) ∧
  ∀ k c p, s.clock k = some c →
    c.linked.get p = (List.range 32).countP fun n => (s.inst n).any fun i => decide (i.owner = p ∧ i.link = some k)

/-- The lists of samples and of pages stand in their one canonical form (R106, R107). -/
def State.MemoryCanonical (s : State) : Prop := s.mem.samplesWf = true ∧ s.mem.tableWf = true

end Sys2Proof.Machine
end

