-- ==== Sys2Proof/Certificates/Slice0/Obligations.lean ====
section
/-! DEFINITION. The statements about the engine that are to be proved, made from the numbered rules of the spec. -/
open Sys2Proof Sys2Proof.Machine

/-! ## The queue of commands -/

/-- The model's choice (log entry 8): a step runs the command at the front of the queue on the state with the queue's
rest, and an empty queue leaves the state as it is. -/
def Obligations.StepRunsTheFrontCommand : Prop :=
  ∀ (c : Instr) (rest : List Instr) (s : State),
    (s.pending = c :: rest → step s = exec c { s with pending := rest }) ∧ (s.pending = [] → step s = .next s)

/-! ## Engine start, RESET and restart -/

/-- What ENGINE_START and ENGINE_RESTART set alike (R25, R91, R119, R146, R159, R175, R186): every slot FREE, no charge
and no waiting list, no staging, record or vote, the frame counter 0, each clock at its start values, each port's
notice state at its defaults but for what `told` adds, its CHAIN IN kept. -/
def StartValues (s t : State) (r : Rate) (told : NoticePort → Port → NoticePort) : Prop :=
  t.running = true ∧ t.frame = 0 ∧ (∀ k, t.inst k = none) ∧
  (∀ p, t.alloc.charged.get p = { pages := 0, units := 0 }) ∧ t.alloc.waiting = [] ∧ t.vote = none ∧
  (∀ p, t.rc p = { staging := none, record := none }) ∧
  (∀ k, k < 4 → ∃ c, t.clock k = some c ∧ c.owner = none ∧ c.tempo = 12000 ∧ c.fpb = r.pick 6144000 12288000 ∧
    c.phase = 0 ∧ c.beat = 1 ∧ c.beats = 4 ∧ c.series = [] ∧ c.lastTap = none ∧ c.tapLine = decide (k = 0) ∧
    c.linked = ⟨0, 0, 0⟩ ∧ c.beatNow = false) ∧
  (∀ p, t.np p = told
    { classes := Vector.replicate 8 { pending := false, detail := none, count := 0 }, classMask := [], errorMask := [],
      mode := .polled, base := 0, stack := [], chainIn := (s.np p).chainIn, first := none,
      next := Vector.replicate 12 0 } p)

/-- The delay memory after a start with a retirement list (R108, R109): banks OK with empty lists, the list's pages
RETIRED, 64 less its length SPARE, in the order that `PagesAreGivenByBanks` states, every other page FREE, none clean,
the priming queue empty, contents kept. -/
def PoolBuilt (s t : State) (retired : List Nat) : Prop :=
  (∀ b, b < 4 → t.mem.banks[b]? = some { failed := false, failures := [] }) ∧ t.mem.priming = [] ∧
  t.mem.samples = s.mem.samples ∧ t.mem.spares.length = 64 - retired.length ∧ t.mem.spares.Nodup ∧
  (∀ p, p < 8192 → t.mem.page p =
    if p ∈ retired then .retired else if p ∈ t.mem.spares then .spare false else .free false) ∧
  (∀ p, p ∈ t.mem.spares → p < 8192 ∧ p ∉ retired) ∧ t.mem.spares = DelayMem.spareBuild retired

/-- ENGINE_START (R173): with a list that can be read, every block takes its start values, every link is DOWN, lanes
are LOST and the word clock UNLOCKED, channels FREE, the list is in force and all of it recorded, and no fault stands.
With a list that cannot be read, the engine runs with an empty list and 64 spares, NV_FAULT is in every port's view
with a FAULT notice, and the FAULT line is asserted. A start without an image, as after a release of RESET, is the start
with the list that is stored (log entry 26). -/
def Obligations.EngineStartSetsEveryBlock : Prop :=
  (∀ (s : State) (x : Straps) (nv : NvImage),
    nv.checkGood = true → nv.pages.length ≤ 64 → (∀ p, p ∈ nv.pages → p ≤ 8191) → nv.pages.Nodup →
    ∃ t, exec (.engineStart x (some nv)) s = .next t ∧
      StartValues s t x.rate (fun n _ => n) ∧ PoolBuilt s t nv.pages ∧ t.straps = x ∧ t.pending = s.pending ∧
      t.nvFault = false ∧ t.faultLine = false ∧
      (∀ p, (t.io p).up = false ∧ (t.io p).run = 0 ∧ (t.io p).queue = [] ∧ (t.io p).held = [] ∧
        (t.io p).sending = none ∧ (t.io p).answer = none ∧ (t.io p).rx = []) ∧
      (∀ k, k < 4 → t.lanes.inputs[k]?.map (fun l => (l.synced, l.badRun, l.goodRun, l.gate)) =
        some (false, 0, 0, 0)) ∧
      t.lanes.wordClock = .unlocked ∧ t.lanes.good = 0 ∧ t.lanes.bad = 0 ∧ t.lanes.gate = 0 ∧
      (∀ c, c < channelCount x.rate → t.claim c = some { state := .free, owner := none, clips := 0 }) ∧
      (∀ c, t.outputSample c = 0) ∧
      t.integ.retired = nv.pages ∧ t.integ.recorded = nv.pages.length ∧ t.integ.watch = [] ∧ t.integ.queue = [] ∧
      t.integ.copy = none ∧ t.integ.owed = [] ∧ t.integ.reported = [] ∧ t.integ.append = none) ∧
  (∀ (s : State) (x : Straps), exec (.engineStart x none) s = exec (.engineStart x (some s.integ.nv)) s) ∧
  ∀ (s : State) (x : Straps) (nv : NvImage),
    (nv.checkGood = false ∨ 64 < nv.pages.length ∨ (∃ p, p ∈ nv.pages ∧ 8191 < p) ∨ ¬nv.pages.Nodup) →
    ∃ t, exec (.engineStart x (some nv)) s = .next t ∧
      StartValues s t x.rate (fun n _ =>
        { n with
          classes := n.classes.set 0 { pending := true, detail := some { detail := .nvFault, frame := 0 }, count := 1 }
          first := some { name := .nvFault, detail := .nvFault, frame := 0 } }) ∧
      PoolBuilt s t [] ∧ t.mem.spares.length = 64 ∧ t.straps = x ∧ t.nvFault = true ∧ t.faultLine = true ∧
      t.integ.retired = []

/-- RESET_ASSERTED (R173, R140): no frame runs, every output channel carries zero, the ATTENTION, CHAIN OUT and FAULT
lines are released, no reply is being sent, and the append in progress is cut short. Until the next engine start no
command acts, a frame, a request and an event alike, but for the level at a CHAIN IN pin. (That a request under RESET
changes nothing is log entry 11.) -/
def Obligations.ResetReleasesEveryLine : Prop :=
  ∀ (s : State),
    ∃ t, exec .resetAsserted s = .next t ∧ t.running = false ∧ (∀ c, t.outputSample c = 0) ∧
      (∀ p, t.attentionLine p = false ∧ t.chainOutLine p = false ∧ (t.io p).sending = none ∧ (t.io p).answer = none) ∧
      t.faultLine = false ∧ t.integ = { s.integ with append := none } ∧
      (∀ c : Instr, (∀ x nv, c ≠ .engineStart x nv) → (∀ p level, c ≠ .chainInChange p level) → exec c t = .next t) ∧
      { t with running := s.running, lanes := s.lanes, ports := s.ports, integ := s.integ } = s

/-! ## Signal arithmetic -/

/-- R30: the take of `A` at the shift `e` is the quotient, rounded toward minus infinity, of `A` plus 2 to the `14 - e`
by 2 to the `15 - e`, clamped to the sample range; at shift 0 it is the nearest sample with halves up. -/
def Obligations.TakeRoundsHalvesUpAndClamps : Prop :=
  ∀ (e A q : Int), -6 ≤ e → e ≤ 2 →
    q * 2 ^ (15 - e).toNat ≤ A + 2 ^ (14 - e).toNat → A + 2 ^ (14 - e).toNat < (q + 1) * 2 ^ (15 - e).toNat →
    take e A = (if 8388607 < q then 8388607 else if q < -8388608 then -8388608 else q) ∧
    (takeClamps e A = if -8388608 ≤ q ∧ q ≤ 8388607 then 0 else 1)

/-- R33: the interpolated read is `a` plus the quotient, rounded toward minus infinity, of `(b - a) f + 128` by 256; it
lies between `a` and `b` inclusive, and it is `a` where `f` is 0 or `b` equals `a`. R34: the new damping state is `s`
plus the quotient of `(y - s) k + 16384` by 32,768, rounded toward minus infinity; it lies between `s` and `y`, does
not move at `k` 0 and equals `y` at 32,768, the bypass. The coefficient that DAMP gives is at most 32,767 and does not
fall as DAMP rises, it is the bypass at 20.0 kHz and in HELD, and the state of a line is 0 when its instance is
created. -/
def Obligations.ReadsAndDampingLieBetween : Prop :=
  (∀ (a b : Int) (f : Nat), f ≤ 255 →
    (∀ q : Int, 256 * q ≤ (b - a) * f + 128 → (b - a) * f + 128 < 256 * (q + 1) → interpolate a b f = a + q) ∧
    min a b ≤ interpolate a b f ∧ interpolate a b f ≤ max a b ∧
    (f = 0 → interpolate a b f = a) ∧ (b = a → interpolate a b f = a)) ∧
  (∀ (s y k : Int), 0 ≤ k → k ≤ 32768 →
    (∀ q : Int, 32768 * q ≤ (y - s) * k + 16384 → (y - s) * k + 16384 < 32768 * (q + 1) → dampStep s y k = s + q) ∧
    min s y ≤ dampStep s y k ∧ dampStep s y k ≤ max s y ∧ dampStep s y 0 = s ∧ dampStep s y 32768 = y) ∧
  (∀ (r : Rate) (damp : Int) (ret : Nat), dampInEffect r true ret damp = 32768 ∧ dampInEffect r false 0 200 = 32768 ∧
    (10 ≤ damp → damp < 200 → 0 ≤ dampInEffect r false 0 damp ∧ dampInEffect r false 0 damp ≤ 32767 ∧
      ∀ d, 10 ≤ d → d ≤ damp → dampInEffect r false 0 d ≤ dampInEffect r false 0 damp)) ∧
  ∀ (slot : Nat) (mirrored : Bool) (first : Nat) (caps : List Nat) (m : DelayMem) (l : Line),
    l ∈ (DelayMem.giveLines slot mirrored first caps m).2.1 → l.damp = 0

/-- R35, R36, R61, R63: the feedback coefficient in effect has magnitude at most 32,440 except in HELD, where it is
32,767; in the `j`-th frame of a return it is the clamped value on the way from 32,767 to its source; the cross
coefficient in effect is zero in HELD, rises from zero to CROSS in a return, keeps the sign of CROSS and with the
feedback adds up to at most 32,440. -/
def Obligations.FeedbackStaysBelowUnity : Prop :=
  ∀ (r : Rate) (ret : Nat) (p cross : Int),
    feedbackInEffect r true ret p = 32767 ∧ (feedbackInEffect r false ret p).natAbs ≤ 32440 ∧
    (∀ j : Nat, 1 ≤ j → j ≤ r.pick 480 960 →
      feedbackInEffect r false j p =
        max (-32440) (min 32440 (32767 + Int.tdiv ((p - 32767) * j) (r.pick 480 960 : Nat)))) ∧
    (feedbackInEffect r false 0 p = max (-32440) (min 32440 p)) ∧
    (∀ fb : Int, fb.natAbs ≤ 32440 →
      crossInEffect r true ret cross fb = 0 ∧ (crossInEffect r false ret cross fb).natAbs + fb.natAbs ≤ 32440 ∧
      (crossInEffect r false 0 cross fb).natAbs = min cross.natAbs (32440 - fb.natAbs) ∧
      (∀ j : Nat, 1 ≤ j → j ≤ r.pick 480 960 → (crossInEffect r false j cross fb).natAbs =
        min (Int.tdiv (cross * j) (r.pick 480 960 : Nat)).natAbs (32440 - fb.natAbs)) ∧
      (0 ≤ cross → 0 ≤ crossInEffect r false 0 cross fb) ∧ (cross ≤ 0 → crossInEffect r false 0 cross fb ≤ 0))

/-- R76: at position `k` of a ramp of `n` frames between values of one shift the value is S plus `(T - S) k / n`
truncated toward zero; it lies between S and T inclusive, and at position `n` it is T. R51: between two gain records of
unequal shift the ramp runs at the larger shift, the coefficient at the smaller one divided by 2 to the power of the
difference, truncating toward zero, and at position `n` the record is the new one as set. A value kept by a frame moves
one position on. -/
def Obligations.RampStaysBetweenStartAndTarget : Prop :=
  (∀ (a b : Val) (n k : Nat), 1 ≤ k → k ≤ n → a.e = b.e →
    (rampValue a b n k).m = a.m + Int.tdiv ((b.m - a.m) * k) n ∧
    min a.m b.m ≤ (rampValue a b n k).m ∧ (rampValue a b n k).m ≤ max a.m b.m ∧ rampValue a b n n = b ∧
    ∀ (p : Param) (g : Ramp), p.ramp = some g → g.start = a → p.target = b → g.len = n → g.pos + 1 = k →
      p.advance.value = rampValue a b n k ∧ p.advance.prev = p.value) ∧
  ∀ (a b : Val) (n k : Nat) (x y : Int), 1 ≤ k → k ≤ n →
    ((a.e < b.e ∧ x = Int.tdiv a.m (2 ^ (b.e - a.e).toNat) ∧ y = b.m) ∨
      (b.e < a.e ∧ x = a.m ∧ y = Int.tdiv b.m (2 ^ (a.e - b.e).toNat))) →
    (k < n → rampValue a b n k = { m := x + Int.tdiv ((y - x) * k) n, e := if a.e < b.e then b.e else a.e } ∧
      min x y ≤ (rampValue a b n k).m ∧ (rampValue a b n k).m ≤ max x y) ∧
    rampValue a b n n = b ∧
    ∀ (p : Param) (g : Ramp), p.ramp = some g → g.start = a → p.target = b → g.len = n → g.pos + 1 = k →
      p.advance.value = rampValue a b n k ∧ p.advance.prev = p.value

/-- R45, R31, R46: a poisoned frame writes zero on every line, keeps the damping states, counts no take, and gives the
outputs of the envelope; a change from clean to poisoned begins a fall from the outputs of the frame before and raises
the poison count by one, up to 65,535, and further poisoned frames do not. In frame `j` of a fall each output is its
held value by `64 - j` of 64, in frame `j` of a rise, which a clean frame begins, the value of R44 by `j` of 64. The
change raises POISON_OUTPUT at the owner with the slot (log entry 62), no other frame does, and a read that reaches a
page in a FAILED bank poisons the frame of an instance that is not mirrored. In memory a poisoned frame leaves 0 at
every address that the lines' writes reach in an OK bank, in the mirror and in the target of a copy too; in any frame
every sample at another address, of a group that is not listed as faulty, is kept. -/
def Obligations.PoisonedFrameWritesOnlyZero : Prop :=
  (∀ (r : Rate) (i : Inst) (x : Int) (reads : List Int),
    (∀ v, v ∈ (outputInst r i x reads true).2 → v = 0) ∧
    ((outputInst r i x reads true).1.lines = i.lines ∧
      (outputInst r i x reads true).1.saturation = i.saturation) ∧
    (i.poisoned = false → i.poison ≤ 65535 →
      (outputInst r i x reads true).1.poison = min 65535 (i.poison + 1)) ∧
    (i.poisoned = true → (outputInst r i x reads true).1.poison = i.poison) ∧
    (i.env.phase = .clear ∨ i.env.phase = .rise →
      (outputInst r i x reads true).1.outL = Int.tdiv (i.outL * 63) 64 ∧
      (outputInst r i x reads true).1.outR = Int.tdiv (i.outR * 63) 64) ∧
    (i.env.phase = .silent →
      (outputInst r i x reads true).1.outL = 0 ∧ (outputInst r i x reads true).1.outR = 0) ∧
    (i.env.phase = .clear ∨ i.env.phase = .rise →
      (outputInst r i x reads true).1.env = { phase := .fall, step := 1, heldL := i.outL, heldR := i.outR }) ∧
    (i.env.phase = .fall → ∀ j, j = i.env.step + 1 →
      (outputInst r i x reads true).1.env = { i.env with step := j } ∧
      (outputInst r i x reads true).1.outL = Int.tdiv (i.env.heldL * (64 - j : Nat)) 64 ∧
      (outputInst r i x reads true).1.outR = Int.tdiv (i.env.heldR * (64 - j : Nat)) 64) ∧
    (∀ j, (j = 1 ∧ (i.env.phase = .fall ∨ i.env.phase = .silent)) ∨ (i.env.phase = .rise ∧ j = i.env.step + 1) →
      ∃ v, v = (outputInst r { i with env := { i.env with phase := .clear } } x reads false).1 ∧
        (outputInst r i x reads false).1.env = { i.env with phase := .rise, step := j } ∧
        (outputInst r i x reads false).1.outL = Int.tdiv (v.outL * j) 64 ∧
        (outputInst r i x reads false).1.outR = Int.tdiv (v.outR * j) 64)) ∧
  ∀ (s : State) (f : FrameIn) (inputs : List Int) (slot : Nat) (i : Inst), s.inst slot = some i →
    i.state ∈ [.running, .held, .draining, .fading] →
    ∃ t j, t = s.runInst f inputs slot ∧ t.inst slot = some j ∧
      (j.poisoned = true → i.poisoned = false → .poisonOutput ∉ (s.np i.owner).errorMask →
        (t.np i.owner).classes.get NoticeClass.inst.idx =
          { pending := true, detail := some { detail := .poisonOutput slot, frame := s.frame },
            count := min 255 (((s.np i.owner).classes.get NoticeClass.inst.idx).count + 1) }) ∧
      (j.poisoned = false ∨ i.poisoned = true → ∀ p, (t.np p).classes.get NoticeClass.inst.idx =
        (s.np p).classes.get NoticeClass.inst.idx) ∧
      (∀ (x : LineRead) (d : Nat) (l : Line) (page : Nat), (∀ k, k ∈ i.lines → k.mirrors = []) →
        x ∈ lineReads s.rate (refreshDecay s.rate i) ((i.oscs.map (phaseNow (s.linkedClock i) i)).headD 0) →
        d ∈ x.heads → i.lines[x.line]? = some l → l.pages[ringPos l (d / 256) / 1024]? = some page →
        s.mem.bankFailed (page / 2048) = true → j.poisoned = true) ∧
      (s.MemoryCanonical →
        (∀ a, (∀ l, l ∈ i.lines → a ∉ l.stores t.integ.copy) →
          (∀ g, g ∈ f.faults → g.page ≠ a / 1024 ∨ g.group ≠ a % 1024 / 8) → t.mem.sample a = s.mem.sample a) ∧
        (j.poisoned = true → ∀ (k : Nat) (l : Line) (a : Nat), i.lines[k]? = some l → k < lineCount i.choice →
          a ∈ l.stores t.integ.copy → t.mem.bankFailed (a / 1024 / 2048) = false → t.mem.sample a = 0))

/-! ## FRAME, lanes and the word clock -/

/-- FRAME (R159, R156, R96, R157, R158, R167, R169): the frame counter rises by one, modulo 2^32, in every word-clock
state; the output samples formed in the frame before leave and one per channel is formed, each a sample; every clock's
phase advances by 256, with a beat, the next in the bar, where it reaches FPB; each lane and the word clock are judged
as their state says, where no change of that state is due, a period of the word clock being good where it is within 2 %
of a frame, and each lane keeps the samples of its last good frame. At each port whose link does not change, the
transmit line moves on by 6.25 or 3.125 characters and a reply sent to its end gives way to a held QUEUE_FULL reply,
then to the one that waits (R169); the run toward UP counts frames of valid characters alone and begins anew with any
other, the silence toward DOWN counts frames with no valid character (R167); then a malformed request at the head of a
port that is UP and has no reply of one taken before to send is answered BAD_ARGUMENT (R168; with an empty body by log
entry 51, in that order by log entry 13), and nothing else of the port changes. What the engine was started with stays.
(The samples, the good lane frames, the periods in picoseconds, up to two in a frame, and the characters are the
model's operand, log entries 9 and 54.) -/
def Obligations.FrameMovesCounterClocksAndLanes : Prop :=
  ∀ (s : State) (f : FrameIn), s.running = true → s.vote = none →
    ∃ t, exec (.frame f) s = .next t ∧ t.frame = s.frame + 1 ∧ t.running = true ∧ t.straps = s.straps ∧
      t.pending = s.pending ∧ t.nvFault = s.nvFault ∧ t.vote = none ∧
      t.lanes.outNow = s.lanes.outNext ∧ t.lanes.outNext.length = s.rate.pick 64 32 ∧
      (∀ x, x ∈ t.lanes.outNext → -8388608 ≤ x ∧ x ≤ 8388607) ∧
      (∀ k c, s.clock k = some c → ∃ d, t.clock k = some d ∧ d.owner = c.owner ∧ d.tempo = c.tempo ∧ d.fpb = c.fpb ∧
        d.beats = c.beats ∧ d.series = c.series ∧ d.tapLine = c.tapLine ∧
        (c.phase + 256 < c.fpb →
          d.phase = c.phase + 256 ∧ d.beat = c.beat ∧ d.beatNow = false ∧ d.barNow = false) ∧
        (c.fpb ≤ c.phase + 256 → d.phase = c.phase + 256 - c.fpb ∧
          d.beat = (if c.beat < c.beats then c.beat + 1 else 1) ∧ d.beatNow = true ∧
          (d.barNow = true ↔ d.beat = 1))) ∧
      (∀ (k : Nat) (l : Lane) (good : Bool) (arrived : List Int), s.lanes.inputs[k]? = some l →
        f.laneGood[k]? = some good →
        arrived = ((List.range (s.rate.pick 16 8)).map fun j => f.channels.getD (k * s.rate.pick 16 8 + j) 0) →
        ∃ m : Lane, t.lanes.inputs[k]? = some m ∧
        (l.synced = true → l.badRun < 4 → m.synced = true ∧ m.gate = min 64 (l.gate + 1) ∧ m.goodRun = l.goodRun ∧
          m.badRun = (if good then 0 else l.badRun + 1) ∧ m.last = if good then arrived else l.last) ∧
        (l.synced = false → l.goodRun < 256 → m.synced = false ∧ m.gate = l.gate ∧ m.badRun = l.badRun ∧
          m.goodRun = (if good then l.goodRun + 1 else 0) ∧ m.last = if good then arrived else l.last)) ∧
      (∀ p, ((s.io p).up = true → (s.io p).silence < s.rate.pick 4800 9600) →
        ((s.io p).up = false → (s.io p).run < s.rate.pick 480 960) →
        ∃ x y : PortIo, (s.io p).LineMoves s.rate x ∧
          y = { x with
            run := if (s.io p).up then (s.io p).run
              else if (f.rx.get p).valid && !(f.rx.get p).invalid then (s.io p).run + 1 else 0,
            silence := if (s.io p).up then (if (f.rx.get p).valid then 0 else (s.io p).silence + 1)
              else (s.io p).silence } ∧
          (y.up = true ∧ y.answer = none ∧ (∀ z, y.sending = some z → z.reply.reason = some .queueFull) →
            ∀ q rest, y.queue = q :: rest → malformed q = true →
              (t.io p).queue = rest ∧ (t.io p).rest = y.rest ∧ (t.io p).held = y.held ∧
              t.Answered { port := p, tag := q.tag } q.code .refused (some .badArgument) .empty) ∧
          (y.up = false ∨ y.answer ≠ none ∨ (∃ z, y.sending = some z ∧ z.reply.reason ≠ some .queueFull) ∨
            (∀ q rest, y.queue = q :: rest → malformed q = false) → t.io p = y)) ∧
      (∀ good : Nat → Bool,
        (∀ x, good x = true ↔ 98 * 10 ^ 12 ≤ 100 * (x * s.rate.hz) ∧ 100 * (x * s.rate.hz) ≤ 102 * 10 ^ 12) →
        (s.lanes.wordClock = .locked → s.lanes.bad < 4 → t.lanes.wordClock = .locked ∧
          t.lanes.gate = min 64 (s.lanes.gate + 1) ∧ (f.periods = [] → t.lanes.bad = s.lanes.bad + 1) ∧
          ∀ x, f.periods = [x] → t.lanes.bad = (if good x then 0 else s.lanes.bad + 1)) ∧
        (s.lanes.wordClock ≠ .locked → s.lanes.good < 4096 → t.lanes.wordClock = s.lanes.wordClock ∧
          t.lanes.gate = s.lanes.gate - 1 ∧ (f.periods = [] → t.lanes.good = 0) ∧
          (∀ x, f.periods = [x] → t.lanes.good = (if good x then s.lanes.good + 1 else 0)) ∧
          ∀ x y, f.periods = [x, y] →
            t.lanes.good = if good x && decide (s.lanes.good = 4095) then 4096
              else if good y then (if good x then s.lanes.good + 2 else 1) else 0))

/-- R157 and R158: LANE_LOST, LANE_SYNCED, CLOCK_LOST and LOCKED, each once its run is complete, with the gate and runs
they set and what they record and raise at every port. -/
def Obligations.LaneAndClockStatesChange : Prop :=
  ∀ (s : State), s.running = true →
    (∀ (k : Nat) (l : Lane), s.lanes.inputs[k]? = some l → l.synced = true → 4 ≤ l.badRun →
      ∃ t l', exec (.laneLost k) s = .next t ∧ t.lanes.inputs[k]? = some l' ∧
        l' = { l with synced := false, gate := 0, goodRun := 0 } ∧
        (∀ p, t.np p = (s.np p).report .laneLost { detail := .laneLost k, frame := s.frame }) ∧
        { t with lanes := { t.lanes with inputs := s.lanes.inputs }, notices := s.notices } = s ∧
        ∀ j, j ≠ k → t.lanes.inputs[j]? = s.lanes.inputs[j]?) ∧
    (∀ (k : Nat) (l : Lane), s.lanes.inputs[k]? = some l → l.synced = false → 256 ≤ l.goodRun →
      ∃ t l', exec (.laneSynced k) s = .next t ∧ t.lanes.inputs[k]? = some l' ∧
        l' = { l with synced := true, badRun := 0 } ∧
        (∀ p, t.np p = (s.np p).raise .clock { detail := .laneSynced k, frame := s.frame }) ∧
        { t with lanes := { t.lanes with inputs := s.lanes.inputs }, notices := s.notices } = s ∧
        ∀ j, j ≠ k → t.lanes.inputs[j]? = s.lanes.inputs[j]?) ∧
    (s.lanes.wordClock = .locked → 4 ≤ s.lanes.bad →
      ∃ t, exec .clockLost s = .next t ∧ t.lanes = { s.lanes with wordClock := .holdover, good := 0 } ∧
        (∀ p, t.np p = (s.np p).report .clockLost { detail := .clockLost, frame := s.frame }) ∧
        { t with lanes := s.lanes, notices := s.notices } = s) ∧
    (s.lanes.wordClock ≠ .locked → 4096 ≤ s.lanes.good →
      ∃ t, exec .locked s = .next t ∧ t.lanes = { s.lanes with wordClock := .locked, bad := 0 } ∧
        (∀ p, t.np p = (s.np p).raise .clock { detail := .locked, frame := s.frame }) ∧
        { t with lanes := s.lanes, notices := s.notices } = s)

/-- The phase of an oscillator in a frame (R41): for a division of `p / q` beats and a linked clock, the part of the cycle
that the position since the bar start has run, rounded down; the stored phase of a free one and of one without a link. -/
def PhaseFormed (clock : Option Clock) (i : Inst) (o : Osc) : Prop :=
  ∀ par, i.param (match i.choice.kind with | .reverb => 8 | .delay => 6 | _ => 5) = some par →
    (par.division = none ∨ clock = none → phaseNow clock i o = o.phase) ∧
    ∀ (code p q : Nat) (c : Clock), par.division = some code → clock = some c → 0 < c.fpb →
      [(4, 1), (2, 1), (3, 1), (4, 3), (1, 1), (3, 2), (2, 3), (1, 2), (3, 4), (1, 3), (1, 4), (3, 8), (1, 6), (1, 8)][code]? =
        some (p, q) →
      ∀ x n, x = (phaseNow clock i o).toNat → n = ((c.beat - 1) * c.fpb + c.phase) * q % (c.fpb * p) →
        x * (c.fpb * p) ≤ n * 2 ^ 32 ∧ n * 2 ^ 32 < (x + 1) * (c.fpb * p)

/-- The values of an oscillator (R42): the triangle in its three pieces, the sine on the straight line between two entries
of its table, rounded down; the table is that of a sine, each half the other's negative and each quarter the next one
backward. -/
def OscillatorValues : Prop :=
  (∀ (x : BitVec 32) (q : Nat), q = x.toNat / 65536 →
    (q < 16384 → triangle x = 2 * q) ∧ (q = 16384 → triangle x = 32767) ∧
    (16384 < q → q ≤ 49151 → triangle x = 65536 - 2 * q) ∧ (49151 < q → triangle x = 2 * q - 131072)) ∧
  (∀ (x : BitVec 32) (k f : Nat), k = x.toNat / 4194304 → f = x.toNat % 4194304 / 16384 →
    ∃ c : Int, 256 * c ≤ (sineEntry (k + 1) - sineEntry k) * f ∧ (sineEntry (k + 1) - sineEntry k) * f < 256 * (c + 1) ∧
      sine x = sineEntry k + c) ∧
  (∀ k, sineEntry (k + 1024) = sineEntry k ∧ sineEntry (k + 512) = -sineEntry k ∧
    (k ≤ 512 → sineEntry (512 - k) = sineEntry k) ∧ (k < 256 → sineEntry k < sineEntry (k + 1))) ∧
  sineEntry 0 = 0 ∧ sineEntry 128 = 23170 ∧ sineEntry 256 = 32767

/-- The reads that an instance makes of its lines in a frame (R42, R43, R54, R55, R58, R61, R64, R67, R68, R86), with the
phase `now` of its oscillators: a time parameter's delay with one head or two, the DELAY's and the CHORUS's modulated, the
lines of a REVERB at their lengths at the SIZE in effect, its first two network lines modulated a quarter cycle apart. -/
def ReadsMade (r : Rate) (i : Inst) (now : BitVec 32) (reads : List LineRead) : Prop :=
  (i.choice.kind = .delay → ∀ l, i.lines[0]? = some l → ∃ x mod, reads = [x] ∧ i.ReadsTime x 0 2 mod ∧
    ∀ depth, Nearest depth ((i.value 5).toNat * r.hz * 256) 100000 →
      ∀ d, Modulates d depth (sine now) l.capacity (mod d)) ∧
  (i.choice.kind = .pingpong → ∃ x y, reads = [x, y] ∧ i.ReadsTime x 0 2 Int.toNat ∧ i.ReadsTime y 1 3 Int.toNat) ∧
  (i.choice.kind = .multitap → reads.length = i.choice.taps ∧
    ∀ k x, reads[k]? = some x → i.ReadsTime x 0 (3 * k + 8) Int.toNat) ∧
  (i.choice.kind = .chorus → reads.length = i.choice.voices ∧ ∀ k x l, reads[k]? = some x → i.lines[k]? = some l →
    ∀ depth offset, Nearest depth ((i.value 4).toNat * r.hz * 256) 100000 →
      Nearest offset ((i.value 7).toNat * 2 ^ 32) 360 → ∃ d, x = { line := k, heads := [d], weight := 0 } ∧
      ∀ p, p = now + BitVec.ofNat 32 (k * offset) →
        Modulates (i.value 3) depth (if i.value 6 = 1 then triangle p else sine p) l.capacity d) ∧
  (i.choice.kind = .reverb → ∃ (x : LineRead) (d : Nat → Nat) (e f : Nat),
    reads = [x, ⟨1, [d 0], 0⟩, ⟨2, [d 1], 0⟩, ⟨3, [d 2], 0⟩, ⟨4, [d 3], 0⟩, ⟨5, [e], 0⟩, ⟨6, [f], 0⟩, ⟨7, [d 6], 0⟩,
      ⟨8, [d 7], 0⟩] ∧ i.ReadsTime x 0 4 Int.toNat ∧
    (∀ k len, (reverbLengths i.choice.variant)[k]? = some len →
      ∃ q, Nearest q (len * (i.value 3).toNat) 100 ∧ d k = q * r.pick 1 2 * 256) ∧
    (∀ l, i.lines[5]? = some l → Modulates (d 4) (i.value 7 * r.pick 256 512) (sine now) l.capacity e) ∧
    ∀ l, i.lines[6]? = some l → Modulates (d 5) (i.value 7 * r.pick 256 512) (sine (now + 0x40000000#32)) l.capacity f)

/-- A FRAME takes what is still due (log entry 10), copies (log entry 53) and runs the slots in order; then pages of
the priming queue are cleared (R116). In it, one frame of an instance (R4, R2, R14, R16, R33, R36, R40, R41, R45, R76,
R82, R86, R113, R136) where no group of it reads faulty and no page of it lies in a FAILED bank: a WAITING or PRIMING
one does not run; any other reads its lines at its heads' ring positions, with the delays of R43, R54 and R86 and the
oscillators of R41 and R42, writes each line at its write position, in the mirror and in the target of a copy too, and
no other sample changes; write positions, oscillators, parameters, sends, dip, return, fade and quiet run move on, and
nothing else does. Its input is the sum over its live and departing sends of the channel's value times the gain in
effect, the value being the sample of the lane, the last good one in a bad frame and zero of a lane that is LOST, times
the lane gate by 64 and then the clock gate by 64, each truncating (R157, R160). With faulty groups (R32, R45, R113 to
R115) each group that its reads touch is read once and in order, from the page or, rescued, from the mirror; the frame
is poisoned exactly where one of them gives no samples, the values used are those that the reads give, zero where a
read is poisoned, and the outputs, the envelope, the counts and the writes are those of the values and of the poison;
no other state changes but by the reads. At the frame's end an offer's window falls by one (R19) and routes move on
(R164). (An addition that comes to exactly 2 to the 32 counts as a wrap by log entry 43, the order of the slots is log
entry 56.) -/
def Obligations.FrameRunsAnInstance : Prop :=
  (∀ (clock : Option Clock) (i : Inst) (o : Osc), PhaseFormed clock i o) ∧ OscillatorValues ∧
  (∀ (r : Rate) (i : Inst) (now : BitVec 32), (∀ l, l ∈ i.lines → 1 ≤ l.capacity) →
    ReadsMade r i now (lineReads r i now)) ∧
  (∀ (s : State) (f : FrameIn) (inputs : List Int) (slot : Nat) (i : Inst), s.inst slot = some i →
    (i.state = .waiting ∨ i.state = .priming → s.runInst f inputs slot = s) ∧
    (i.state ≠ .waiting → i.state ≠ .priming → f.faults = [] → s.MemoryCanonical → (∀ l, l ∈ i.lines → l.pages ≠ []) →
      (∀ p, p ∈ State.instPages i → s.mem.bankFailed (p / 2048) = false) →
      ∃ (t : State) (j : Inst) (now : List (BitVec 32)) (out : Inst × List Int), t = s.runInst f inputs slot ∧
        now = i.oscs.map (phaseNow (s.linkedClock i) i) ∧
        out = outputInst s.rate (refreshDecay s.rate i) (inputSum i inputs)
          ((lineReads s.rate i (now.headD 0)).map (s.mem.read i)) false ∧
        t.inst slot = some j ∧ OtherSlots s t slot ∧ { t with insts := s.insts, mem := s.mem } = s ∧
        { t.mem with samples := s.mem.samples } = s.mem ∧
        (∀ a, (∀ l, l ∈ i.lines → a ∉ l.stores s.integ.copy) → t.mem.sample a = s.mem.sample a) ∧
        (∀ (k : Nat) (l : Line) (v : Int) (a : Nat), i.lines[k]? = some l → out.2[k]? = some v → a ∈ l.stores s.integ.copy →
          (∀ (k' : Nat) (l' : Line), i.lines[k']? = some l' → a ∈ l'.stores s.integ.copy → k' = k) →
          s.mem.bankFailed (a / 1024 / 2048) = false → t.mem.sample a = v) ∧
        j.outL = out.1.outL ∧ j.outR = out.1.outR ∧ j.poisoned = false ∧ j.env = out.1.env ∧
        j.saturation = out.1.saturation ∧ j.decay = out.1.decay ∧
        (∀ (k : Nat) (l d : Line), i.lines[k]? = some l → out.1.lines[k]? = some d →
          j.lines[k]? = some { l with writePos := (l.writePos + 1) % (l.pages.length * 1024), damp := d.damp }) ∧
        (∀ (n : Nat) (o : Osc) (w : BitVec 32), i.oscs[n]? = some o → now[n]? = some w →
          (lfoDivision i = none → w = o.phase ∧ ∃ inc, inc = lfoIncrement s.rate (i.value (rateParam i.choice.kind)).toNat ∧
            j.oscs[n]? = some { phase := w + BitVec.ofNat 32 inc, last := w, wrapped := decide (2 ^ 32 ≤ w.toNat + inc),
                                  moved := false, acted := false }) ∧
          (lfoDivision i ≠ none → j.oscs[n]? = some { phase := w, last := w, wrapped := false, moved := false, acted := false })) ∧
        (∀ n p, i.param n = some p → j.param n = some p.advance) ∧
        (∀ (n : Nat) (x : Path), i.sends[n]? = some (some x) → j.sends[n]? = some (some x.advance)) ∧
        j.dip = (if i.dip.phase = .none then i.dip else { i.dip with pos := i.dip.pos + 1 }) ∧
        j.ret = (if i.ret = 0 then 0 else i.ret + 1) ∧ j.fade = (if i.state = .fading then i.fade + 1 else i.fade) ∧
        j.quiet = (if i.state = .draining then
          (if out.1.outL.natAbs ≤ 265 ∧ out.1.outR.natAbs ≤ 265 then i.quiet + 1 else 0) else i.quiet) ∧
        { j with lines := i.lines, oscs := i.oscs, params := i.params, sends := i.sends, dip := i.dip, ret := i.ret,
                 fade := i.fade, quiet := i.quiet, outL := i.outL, outR := i.outR, poisoned := i.poisoned, env := i.env,
                 saturation := i.saturation, decay := i.decay } = i) ∧
    (i.state ≠ .waiting → i.state ≠ .priming → s.MemoryCanonical →
      ∃ (t u : State) (j : Inst) (now : List (BitVec 32)) (reads : List LineRead) (groups : List (Nat × Option Nat × Nat))
        (src : Nat → Nat → Option Nat) (out : Inst × List Int), t = s.runInst f inputs slot ∧
        now = i.oscs.map (phaseNow (s.linkedClock i) i) ∧ reads = lineReads s.rate (refreshDecay s.rate i) (now.headD 0) ∧
        GroupsAreRead f.faults i reads s u groups src ∧ t.inst slot = some j ∧ OtherSlots s t slot ∧
        (j.poisoned = true ↔ ∃ g, g ∈ groups ∧ src g.1 g.2.2 = none) ∧
        out = outputInst s.rate (refreshDecay s.rate i) (inputSum i inputs) (reads.map (u.mem.readFrom src i)) j.poisoned ∧
        j.outL = out.1.outL ∧ j.outR = out.1.outR ∧ j.env = out.1.env ∧ j.saturation = out.1.saturation ∧
        j.poison = out.1.poison ∧ j.quiet = out.1.quiet ∧
        { t with insts := s.insts, mem := u.mem, notices := u.notices } = { u with insts := s.insts } ∧
        { t.mem with samples := u.mem.samples } = u.mem ∧
        (∀ a, (∀ l, l ∈ i.lines → a ∉ l.stores u.integ.copy) → t.mem.sample a = u.mem.sample a) ∧
        ∀ (k : Nat) (l : Line) (v : Int) (a : Nat), i.lines[k]? = some l → out.2[k]? = some v → a ∈ l.stores u.integ.copy →
          (∀ (k' : Nat) (l' : Line), i.lines[k']? = some l' → a ∈ l'.stores u.integ.copy → k' = k) →
          u.mem.bankFailed (a / 1024 / 2048) = false → t.mem.sample a = v)) ∧
  (∀ (s : State) (f : FrameIn) (i : Inst), inputSum i (s.inputs f) = i.hears (s.channelIn f)) ∧
  (∀ (s : State) (f : FrameIn), s.running = true → s.MemoryCanonical → ∃ (t u : State) (v : Nat → State),
    FrameRuns s f t u v ∧
    (∀ slot i, u.inst slot = some i → i.state ≠ .priming → (v slot).inst slot = some i ∧
      ∃ j, (v (slot + 1)).inst slot = some j ∧ t.inst slot = some (State.endInst j)) ∧
    t.mem.priming = u.mem.priming.drop 4 ∧
    ∀ a, (∀ q, q ∈ u.mem.priming.take 4 → q.1 ≠ a / 1024) → t.mem.sample a = (v 32).mem.sample a) ∧
  ∀ (i : Inst), { State.endInst i with offer := i.offer, left := i.left, right := i.right } = i ∧
    (State.endInst i).offer = i.offer.map (fun o => { o with left := o.left - 1 }) ∧
    ∀ (side : Side) (n : Nat) (x : Path), (i.routes side)[n]? = some (some x) →
      ((State.endInst i).routes side)[n]? = some (some x.advance)

/-- The points of the DAMP table at a rate: tenths of a kilohertz and the coefficient (R52). -/
def dampPoints (r : Rate) (n : Nat) : Option (Int × Int) :=
  match r with
  | .k48 => [(10, 4020), (20, 7548), (40, 13357), (80, 21269), (120, 25956), (160, 28733), (199, 30346)][n]?
  | .k96 => [(10, 2076), (20, 4020), (40, 7548), (80, 13357), (120, 17828), (160, 21269), (199, 23860)][n]?

/-- What the first `n` taps of a MULTITAP add up to on a side, -1 for left and 1 for right (R64). -/
def tapSum (i : Inst) (n : Nat) (reads : List Int) (side : Int) : Int :=
  ((List.range n).map fun k => reads.getD k 0 *
    Int.tdiv (Int.tdiv (32767 * (100 + side * i.value (3 * k + 10))) 200 * i.value (3 * k + 9)) 32768).sum

/-- What the voices of a CHORUS add up to on the left and on the right, by their number (R67). -/
def VoiceSums (n : Int) (v : Nat → Int) (left right : Int) : Prop :=
  (n = 1 ∧ left = v 0 * 32767 ∧ right = v 0 * 32767) ∨ (n = 2 ∧ left = v 0 * 32767 ∧ right = v 1 * 32767) ∨
  (n = 3 ∧ left = (v 0 + v 2) * 16384 ∧ right = v 1 * 32767) ∨
  (n = 4 ∧ left = (v 0 + v 2) * 16384 ∧ right = (v 1 + v 3) * 16384)

/-- The takes of some accumulators at shift 0 that clamp (R31). -/
def clampsOf (l : List Int) : Nat := (l.map (takeClamps 0)).sum

/-- The four decay gains of a REVERB at a DECAY and a SIZE (R39, R54), each to within a thousandth of the power of ten
rounded and held to 32,440 (that it is the nearest integer is log entry 17). -/
def DecayGains (r : Rate) (v : Option Variant) (decay size : Nat) (gains : List Int) : Prop :=
  gains.length = 4 ∧
  ∀ (k len : Nat) (g : Int), (reverbLengths v)[k + 4]? = some len → gains[k]? = some g →
    ∃ q, Nearest q (len * size) 100 ∧
      |(g : ℝ) - min 32440 (32768 * (10 : ℝ) ^ (-(30 * (q * r.pick 1 2 : Nat) : ℝ) / (decay * r.hz)))| ≤ 501 / 1000

/-- What the five kinds compute in a frame from their input and their reads (R34, R37, R38, R55, R57, R58, R60, R61,
R63, R64, R66, R67, R70), the output chain (R44, R16, R82) and the sums of the output channels (R165). A clean frame
raises the saturation count by its takes that clamp, up to 65,535: of the input, of each write and each tap, voice,
diffuser and network sum of the kind, and of the two outputs (R31). After a FRAME the sample formed for a channel is
the take at shift 0 of the sum over the instances of that frame, and the channel's clip count is one more where that
take clamps, up to 65,535. What is written to a line is always a sample, and a HELD instance takes no input (R36): each
line that feeds back is written with its undamped read by 32,767, the cross-feed is zero, and the network of a REVERB
takes nothing from its diffuser (R57, R60, R63, R66, R70). The damping coefficient in effect is that of the DAMP table,
on the straight line between two points, with the bypass in HELD and its return ramp (R52, R34, R36). The decay gains
of a REVERB are those of the DECAY and the SIZE in effect in the frame, worked out anew where either has moved, and
each is the power of ten of R39, held to 32,440, rounded (to within a thousandth of a unit; that it is the nearest
integer is log entry 17). (What is due before a FRAME is taken first by log entry 10.) -/
def Obligations.KindsComputeWritesAndOutputs : Prop :=
  (∀ (r : Rate) (i : Inst) (x : Int) (reads : List Int),
    (∀ v, v ∈ (kindFrame r i x reads).writes → -8388608 ≤ v ∧ v ≤ 8388607) ∧
    (i.state = .held → (∀ y, kindFrame r i y reads = kindFrame r i x reads) ∧
      (∀ v, i.choice.kind = .delay → reads = [v] → kindFrame r i x reads =
        { writes := [take 0 (32767 * v)], damps := [v], left := v, right := v, clamps := clampsOf [32767 * v] }) ∧
      (∀ v w, i.choice.kind = .pingpong → reads = [v, w] → kindFrame r i x reads =
        { writes := [take 0 (32767 * v), take 0 (32767 * w)], damps := [v, w], left := v, right := w,
          clamps := clampsOf [32767 * v, 32767 * w] }) ∧
      (∀ (n : Nat) (y : Int), i.choice.kind = .multitap → (n : Int) = i.value 2 → 1 ≤ n → y = reads.getD (n - 1) 0 →
        (kindFrame r i x reads).writes = [take 0 (32767 * y)] ∧ (kindFrame r i x reads).damps = [y] ∧
        (kindFrame r i x reads).clamps = clampsOf [32767 * y, tapSum i n reads (-1), tapSum i n reads 1]) ∧
      (i.choice.kind = .chorus → (kindFrame r i x reads).writes = (List.range i.choice.voices).map fun k =>
        take 0 (if i.choice.flange then 32767 * reads.getD k 0 else 0)) ∧
      (i.choice.kind = .chorus → ∀ left right, VoiceSums (i.value 2) (fun k => reads.getD k 0) left right →
        (kindFrame r i x reads).clamps = clampsOf ([left, right] ++ (List.range i.choice.voices).map fun k =>
          if i.choice.flange then 32767 * reads.getD k 0 else 0)) ∧
      (i.choice.kind = .multitap ∨ i.choice.kind = .chorus → ∀ k, k = kindFrame r { i with state := .running } x reads →
        (kindFrame r i x reads).left = k.left ∧ (kindFrame r i x reads).right = k.right) ∧
      ∀ pre d1 d2 d3 d4 n1 n2 n3 n4, i.choice.kind = .reverb → reads = [pre, d1, d2, d3, d4, n1, n2, n3, n4] →
        ∃ (h g : Int) (m : Nat), g = diffusionGain (i.value 6).toNat ∧
          2 * h ≤ n1 + n2 + n3 + n4 ∧ n1 + n2 + n3 + n4 < 2 * h + 2 ∧
          m = clampsOf ([d1, d2, d3, d4].map (fun d => -(g * d)) ++
            [d1, d2, d3, d4].map (fun d => d * 32768 + g * take 0 (-(g * d))) ++
            [n1, n2, n3, n4].map fun n => 32767 * (n - h)) ∧
          kindFrame r i x reads =
            { writes := [0, take 0 (-(g * d1)), take 0 (-(g * d2)), take 0 (-(g * d3)), take 0 (-(g * d4)),
                take 0 (32767 * (n1 - h)), take 0 (32767 * (n2 - h)), take 0 (32767 * (n3 - h)),
                take 0 (32767 * (n4 - h))],
              damps := [dampOf i 0, dampOf i 1, dampOf i 2, dampOf i 3, dampOf i 4, n1, n2, n3, n4],
              left := n1 + n3, right := n2 + n4, clamps := m }) ∧
    (i.state ≠ .held → ∀ fb : Int → Int, (∀ p, fb p = feedbackInEffect r false i.ret p) →
      ∀ z : Nat → Int → Int, (∀ k v, z k v = dampStep (dampOf i k) v (dampNow r i)) →
      (∀ v y, i.choice.kind = .delay → reads = [v] → y = z 0 v → kindFrame r i x reads =
        { writes := [take 0 (x * 32768 + fb (i.value 3) * y)], damps := [y], left := y, right := y,
          clamps := clampsOf [x * 32768 + fb (i.value 3) * y] }) ∧
      (∀ v w y0 y1 cross, i.choice.kind = .pingpong → reads = [v, w] → y0 = z 0 v → y1 = z 1 w →
        cross = crossInEffect r false i.ret (i.value 5) (fb (i.value 4)) → kindFrame r i x reads =
          { writes := [take 0 (x * 32768 + fb (i.value 4) * y0 + cross * y1), take 0 (fb (i.value 4) * y1 + cross * y0)],
            damps := [y0, y1], left := y0, right := y1,
            clamps := clampsOf [x * 32768 + fb (i.value 4) * y0 + cross * y1, fb (i.value 4) * y1 + cross * y0] }) ∧
      (∀ (n : Nat) (y : Int), i.choice.kind = .multitap → (n : Int) = i.value 2 → 1 ≤ n → y = z 0 (reads.getD (n - 1) 0) →
        kindFrame r i x reads =
          { writes := [take 0 (x * 32768 + fb (i.value 3) * y)], damps := [y],
            left := take 0 (tapSum i n reads (-1)), right := take 0 (tapSum i n reads 1),
            clamps := clampsOf [x * 32768 + fb (i.value 3) * y, tapSum i n reads (-1), tapSum i n reads 1] }) ∧
      (i.choice.kind = .chorus → ∀ v : Nat → Int, (∀ k, v k = reads.getD k 0) →
        (kindFrame r i x reads).writes = ((List.range i.choice.voices).map fun k =>
          take 0 (x * 32768 + if i.choice.flange then fb (i.value 8) * v k else 0)) ∧
        ∀ left right, VoiceSums (i.value 2) v left right →
          (kindFrame r i x reads).left = take 0 left ∧ (kindFrame r i x reads).right = take 0 right ∧
          (kindFrame r i x reads).clamps = clampsOf ([left, right] ++ (List.range i.choice.voices).map fun k =>
            x * 32768 + if i.choice.flange then fb (i.value 8) * v k else 0)) ∧
      (∀ pre d1 d2 d3 d4 n1 n2 n3 n4, i.choice.kind = .reverb → reads = [pre, d1, d2, d3, d4, n1, n2, n3, n4] →
        ∃ w1 w2 w3 w4 u2 u3 u4 u5 h c : Int, ∃ g : Int, ∃ m : Nat, g = diffusionGain (i.value 6).toNat ∧
          w1 = take 0 (pre * 32768 - g * d1) ∧ u2 = take 0 (d1 * 32768 + g * w1) ∧
          w2 = take 0 (u2 * 32768 - g * d2) ∧ u3 = take 0 (d2 * 32768 + g * w2) ∧
          w3 = take 0 (u3 * 32768 - g * d3) ∧ u4 = take 0 (d3 * 32768 + g * w3) ∧
          w4 = take 0 (u4 * 32768 - g * d4) ∧ u5 = take 0 (d4 * 32768 + g * w4) ∧
          c = z 5 n1 + z 6 n2 + z 7 n3 + z 8 n4 ∧ 2 * h ≤ c ∧ c < 2 * h + 2 ∧
          m = clampsOf [pre * 32768 - g * d1, d1 * 32768 + g * w1, u2 * 32768 - g * d2, d2 * 32768 + g * w2,
            u3 * 32768 - g * d3, d3 * 32768 + g * w3, u4 * 32768 - g * d4, d4 * 32768 + g * w4,
            u5 * 32768 + fb (i.decay.gains.getD 0 0) * (z 5 n1 - h),
            u5 * 32768 + fb (i.decay.gains.getD 1 0) * (z 6 n2 - h),
            u5 * 32768 + fb (i.decay.gains.getD 2 0) * (z 7 n3 - h),
            u5 * 32768 + fb (i.decay.gains.getD 3 0) * (z 8 n4 - h)] ∧
          kindFrame r i x reads =
            { writes := [take 0 (x * 32768), w1, w2, w3, w4,
                take 0 (u5 * 32768 + fb (i.decay.gains.getD 0 0) * (z 5 n1 - h)),
                take 0 (u5 * 32768 + fb (i.decay.gains.getD 1 0) * (z 6 n2 - h)),
                take 0 (u5 * 32768 + fb (i.decay.gains.getD 2 0) * (z 7 n3 - h)),
                take 0 (u5 * 32768 + fb (i.decay.gains.getD 3 0) * (z 8 n4 - h))],
              damps := [dampOf i 0, dampOf i 1, dampOf i 2, dampOf i 3, dampOf i 4, z 5 n1, z 6 n2, z 7 n3, z 8 n4],
              left := z 5 n1 + z 7 n3, right := z 6 n2 + z 8 n4, clamps := m }))) ∧
  (∀ (r : Rate) (i : Inst) (n : Nat) (damp k k0 k1 d0 d1 : Int), n = (match i.choice.kind with
      | .reverb => 5 | .delay | .multitap => 4 | .pingpong | .chorus => 6) → damp = i.value n →
    (damp = 200 ∧ k = 32768 ∨
      (∃ m, dampPoints r m = some (d0, k0) ∧ dampPoints r (m + 1) = some (d1, k1) ∧ d0 ≤ damp ∧ damp ≤ d1 ∧
        k = k0 + Int.tdiv ((k1 - k0) * (damp - d0)) (d1 - d0))) →
    (i.state = .held → dampNow r i = 32768) ∧ (i.state ≠ .held → i.ret = 0 → dampNow r i = k) ∧
    (i.state ≠ .held → 1 ≤ i.ret → i.ret ≤ r.pick 480 960 →
      dampNow r i = 32768 + Int.tdiv ((k - 32768) * i.ret) (r.pick 480 960 : Nat))) ∧
  (∀ (r : Rate) (i j : Inst) (decay size : Nat), j = refreshDecay r i → i.choice.kind = .reverb →
    i.decay = decayOf r i.choice i.decay.decay i.decay.size → i.value 2 = decay → i.value 3 = size → 1 ≤ decay →
    { j with decay := i.decay } = i ∧ j.decay.decay = decay ∧ j.decay.size = size ∧
    DecayGains r i.choice.variant decay size j.decay.gains) ∧
  (∀ (r : Rate) (i j : Inst) (input : Int) (reads : List Int) (k : KindOut) (g : Val) (dip fade : Int → Int),
    j = (outputInst r i input reads false).1 → k = kindFrame r i (take 0 input) reads → g = outGain i →
    i.env.phase = .clear →
    (∀ v, dip v = match i.dip.phase with
      | .none => v
      | .fall => Int.tdiv (v * (r.pick 240 480 - i.dip.pos : Nat)) (r.pick 240 480 : Nat)
      | .rise => Int.tdiv (v * i.dip.pos) (r.pick 240 480 : Nat)) →
    (∀ v, fade v = if i.state = .fading then Int.tdiv (v * (r.pick 2400 4800 - i.fade : Nat)) (r.pick 2400 4800 : Nat)
      else v) →
    j.outL = fade (dip (take g.e (k.left * g.m))) ∧ j.outR = fade (dip (take g.e (k.right * g.m)))) ∧
  (∀ (r : Rate) (i : Inst) (input : Int) (reads : List Int) (k : KindOut) (g : Val), k = kindFrame r i (take 0 input) reads →
    g = outGain i → (outputInst r i input reads false).1.saturation = min 65535
      (i.saturation + (takeClamps 0 input + k.clamps + takeClamps g.e (k.left * g.m) + takeClamps g.e (k.right * g.m)))) ∧
  (∀ (s t u : State) (f : FrameIn) (v : Nat → State) (chan : Nat) (sum : Int), s.running = true → FrameRuns s f t u v →
    chan < channelCount u.rate → sum = ((List.range 32).map ((v 32).adds chan)).sum →
    t.lanes.outNow = u.lanes.outNext ∧ t.lanes.outNext[chan]? = some (take 0 sum) ∧
    ∀ c, u.claim chan = some c → ∃ d, t.claim chan = some d ∧
      d.clips = if takeClamps 0 sum = 0 then c.clips else min 65535 (c.clips + 1)) ∧
  ∀ (s : State) (chan : Nat) (sum : Int), chan < channelCount s.rate →
    sum = ((List.range 32).map (s.adds chan)).sum →
    s.formOutputs.lanes.outNow = s.lanes.outNext ∧ s.formOutputs.lanes.outNext[chan]? = some (take 0 sum) ∧
    ∀ c, s.claim chan = some c → s.formOutputs.claim chan =
      some (if -8388608 ≤ (sum + 16384) / 32768 ∧ (sum + 16384) / 32768 ≤ 8388607 then c
        else { c with clips := min 65535 (c.clips + 1) })

/-- A group that a line reads (R114, R115, R118): CLEAN and CORRECTED give the page's own samples, CORRECTED with a
record in the owner's view and no notice, and are counted, a page that has no entry in a watch table with a place as
the first (R130); UNCORRECTABLE poisons the read where the line is not mirrored or the mirror's group is lost too, and
is rescued from the mirror otherwise, whose group is written over the failing one in an OK bank; each group that is
lost in an OK bank enters the failure list, requests the retirement of its page and is told to the owner as an error
and a MEMORY notice, with the slot, the page and whether the mirror rescued the read, and nothing is told of a page in
a FAILED bank; a mirror's CORRECTED group is recorded and counted besides. (That a CORRECTED record carries the slot
and the page is log entry 66; that of two groups lost the page read is handled before its mirror is log entry 77.) -/
def Obligations.ReadsFollowTheirOutcomes : Prop :=
  ∀ (s t : State) (faults : List GroupFault) (page group : Nat) (mirror src : Option Nat), s.MemoryCanonical →
    group < 128 → readGroup faults s page mirror group = (t, src) →
    (s.outcome faults page group = .clean → t = s ∧ src = some page) ∧
    (s.outcome faults page group = .corrected → src = some page ∧ t.mem.samples = s.mem.samples ∧ t.insts = s.insts ∧
      (page ∈ s.integ.counted → page ∉ s.integ.owed → { t with notices := s.notices } = s ∧
        ∀ p, t.np p = if s.pageOwner page = some p ∨ s.pageOwner page = none then
          (s.np p).record { name := .corrected, detail := .corrected (s.pageSlot page) page, frame := s.frame }
        else s.np p)) ∧
    (s.outcome faults page group = .corrected → CorrectedTold s t page ∧
      (page ∉ s.integ.counted → page ∉ s.integ.owed → s.migrating page = false →
        ((∃ b, s.mem.page page = .free b) ∨ ∃ hd, s.mem.page page = .allocated hd) →
        (∀ w, w ∈ s.integ.watch → w.page ≠ page) → s.integ.watch.length < 16 →
        { t with integ := s.integ, notices := s.notices } = s ∧
        t.integ = { s.integ with
          counted := page :: s.integ.counted,
          watch := s.integ.watch ++ [{ page := page, count := 1, first := s.frame, mark := true }] })) ∧
    (s.outcome faults page group = .uncorrectable → ∀ ok : Bool, ok = !s.mem.bankFailed (page / 2048) →
      (mirror = none → ok = true → UncorrectableTold s t page group false) ∧
      ∀ q, mirror = some q →
        (s.outcome faults q group = .uncorrectable → ∃ u,
          (ok = true → UncorrectableTold s u page group false) ∧ (ok = false → u = s) ∧
          (s.mem.bankFailed (q / 2048) = false → UncorrectableTold u t q group false) ∧
          (s.mem.bankFailed (q / 2048) = true → t = u)) ∧
        (s.outcome faults q group ≠ .uncorrectable → ∃ u v,
          (ok = true → GroupWritten s u page group (fun a => s.mem.sample (q * 1024 + a % 1024)) ∧
            UncorrectableTold u v page group true) ∧ (ok = false → u = s ∧ v = s) ∧
          (s.outcome faults q group = .clean → t = v) ∧
          (s.outcome faults q group = .corrected → CorrectedTold v t q))) ∧
    (s.outcome faults page group = .uncorrectable →
      (mirror = none → src = none ∧ t.mem.samples = s.mem.samples ∧ (s.mem.bankFailed (page / 2048) = true → t = s)) ∧
      (∀ q, mirror = some q → s.outcome faults q group = .uncorrectable → src = none ∧ t.mem.samples = s.mem.samples) ∧
      (∀ q, mirror = some q → s.outcome faults q group ≠ .uncorrectable → src = some q ∧
        (s.mem.bankFailed (page / 2048) = true → t.mem.samples = s.mem.samples) ∧
        (s.mem.bankFailed (page / 2048) = false →
          GroupBecomes s.mem t.mem page group fun a => s.mem.sample (q * 1024 + a % 1024))) ∧
      (s.mem.bankFailed (page / 2048) = false →
        (mirror = none ∨ ∃ q, mirror = some q ∧ s.outcome faults q group = .clean) →
        ∀ p, s.pageOwner page = some p ∨ s.pageOwner page = none → .uncorrectable ∉ (s.np p).errorMask →
          ((t.np p).classes.get NoticeClass.memory.idx).pending = true))

/-- The first pages of the priming queue are cleared (R116), four of them in each FRAME, and an instance whose last
page that was is primed (R8): at the end of a FRAME the samples of the first four pages that were queued once the steps
due before it had been taken are 0, those of a FAILED bank apart, they have left the queue, and a PRIMING instance with
no page left in it is primed. A copy frame copies its 64 samples of the source to the target, an UNCORRECTABLE group
from the partner where that one reads, as zeros otherwise (R136; before the frame's own writes by log entry 53). A
FRAME takes one from the window of an open vote (R175). At the end of a FRAME the INTEGRITY UNIT has an append in
progress one frame shorter, or begins one where an entry is not recorded (R140), makes the pass that the page visited
is owed (R131), and forgets the visit, the pages counted and those that requested retirement in the frame, and that a
copy start was tried (R126, R130, R132, R135); else it keeps what the frame's reads left. (That a CORRECTED copy read
is not recorded is log entry 23, what a partner that cannot be read leaves is log entry 68, that a group which cannot
be read is eight zeros whole log entry 59, the frame less of an append that starts late log entry 38, what is due
before the frame log entry 10.) -/
def Obligations.FramesClearCopyAndCount : Prop :=
  (∀ (s : State) (n : Nat), s.MemoryCanonical → ∃ t, t = s.pageClear n ∧ t.mem.priming = s.mem.priming.drop n ∧
    (∀ a, t.mem.sample a =
      if (∃ q, q ∈ s.mem.priming.take n ∧ q.1 = a / 1024) ∧ s.mem.bankFailed (a / 1024 / 2048) = false then 0
      else s.mem.sample a) ∧
    { t.mem with samples := s.mem.samples, priming := s.mem.priming, clearLeft := s.mem.clearLeft } = s.mem ∧
    { t with mem := s.mem, insts := s.insts } = s ∧
    ∀ k, t.inst k = (s.inst k).map fun i =>
      if i.state = .priming ∧ (∀ q, q ∈ s.mem.priming.drop n → q.2 ≠ k) then { i with primed := true } else i) ∧
  (∀ (s : State) (faults : List GroupFault) (c : Copy), s.MemoryCanonical → s.integ.copy = some c → 1 ≤ c.pos →
    c.source ≠ c.target → s.mem.bankFailed (c.target / 2048) = false →
    (c.pos ≤ 16 → (∀ g, 8 * (c.pos - 1) ≤ g → g < 8 * c.pos → s.outcome faults c.source g ≠ .uncorrectable) →
      ∃ t, t = s.copyFrame faults ∧ { t with mem := s.mem, integ := s.integ } = s ∧
        t.integ = { s.integ with copy := some { c with pos := c.pos + 1 } } ∧
        { t.mem with samples := s.mem.samples } = s.mem ∧
        ∀ a, t.mem.sample a = if a / 1024 = c.target ∧ a % 1024 / 64 = c.pos - 1 then
          s.mem.sample (c.source * 1024 + a % 1024) else s.mem.sample a) ∧
    (16 < c.pos → s.copyFrame faults = s) ∧
    ∀ g, g < 128 → s.outcome faults c.source g = .uncorrectable →
      ((∀ p, s.partner c.holder = some p → s.outcome faults p g = .uncorrectable) →
        GroupBecomes s.mem (s.copyOneGroup faults c g).mem c.target g fun _ => 0) ∧
      ∀ p, s.partner c.holder = some p → s.outcome faults p g ≠ .uncorrectable →
        GroupBecomes s.mem (s.copyOneGroup faults c g).mem c.target g fun a => s.mem.sample (p * 1024 + a % 1024)) ∧
  (∀ (s : State) (f : FrameIn) (v : Vote), s.running = true → s.vote = some v → v.carried = false → 0 < v.left →
    (∀ p, s.linkUp p = true → (s.io p).silence < s.rate.pick 4800 9600) →
    ∃ t, exec (.frame f) s = .next t ∧ t.vote = some { v with left := v.left - 1 }) ∧
  (∀ (s : State) (f : FrameIn), s.running = true → ∃ t u : State, exec (.frame f) s = .next t ∧
    u = s.takeEnded.engineRestart.takeStarting f.faults ∧ t.mem.priming = u.mem.priming.drop 4 ∧
    (∀ a q, q ∈ u.mem.priming.take 4 → q.1 = a / 1024 → t.mem.bankFailed (a / 1024 / 2048) = false →
      t.mem.sample a = 0) ∧
    ∀ slot i, u.inst slot = some i → i.state = .priming → ∃ j, t.inst slot = some j ∧
      j.primed = (i.primed || decide (∀ q, q ∈ u.mem.priming.drop 4 → q.2 ≠ slot))) ∧
  ∀ (s t u : State) (f : FrameIn) (v : Nat → State) (x : Integrity), s.running = true → FrameRuns s f t u v →
    x = (v 32).integ →
    t.integ.visited = false ∧ t.integ.counted = [] ∧ t.integ.requested = [] ∧ t.integ.copyTried = false ∧
    t.integ.passDue = none ∧ t.integ.late = false ∧
    (∀ a, x.append = some a → t.integ.append = some { a with left := a.left - 1 }) ∧
    (x.append = none → x.retired.length ≤ x.recorded → t.integ.append = none) ∧
    (x.append = none → x.recorded < x.retired.length → t.integ.append =
      some { left := s.rate.pick 960 1920 - (if x.late then 1 else 0) - 1,
             upto := if nvReadable x.nv then x.recorded + 1 else x.retired.length }) ∧
    (x.passDue = none → t.integ.watch = x.watch) ∧
    (∀ page w, x.passDue = some page → (w ∈ t.integ.watch ↔ (w ∈ x.watch ∧ w.page ≠ page) ∨
      ∃ y, y ∈ x.watch ∧ y.page = page ∧ y.mark = true ∧ w = { y with mark := false })) ∧
    { t.integ with visited := x.visited, counted := x.counted, requested := x.requested, copyTried := x.copyTried,
                   passDue := x.passDue, late := x.late, append := x.append, watch := x.watch } = x

/-! ## Reading the engine -/

/-- IDENTIFY (R172): nothing changes, and the reply is DONE with a body of 35 bytes as the table of R172 lays it out,
from the values in effect. BUDGET (R123): nothing changes, and the reply gives for every port the pages and units
charged and what of them lies beyond its reserve, with the reserves, the common shares and what is left of them, the
bank totals, and of each bank its state and its FREE, clean FREE, SPARE, RETIRED and WITHDRAWN pages. The page headroom
is the largest unmirrored page charge, the unit headroom the largest unit charge, that R120 would admit for the port.
-/
def Obligations.IdentifyAndBudgetReport : Prop :=
  (∀ (s : State) (h : Hdr), s.takes h 0x01 = true →
    ∃ t r, exec (.identify h) s = .next t ∧ Unchanged h s t ∧ t.Answered h 0x01 .done none (.identify r) ∧
      identifyBytes r =
        [0, 0, 0x7B, 0x0E, 0x40, 0x73, BitVec.ofNat 8 (Config.revisionLessOne + 1), s.rate.pick 0 1,
          (match s.straps.split with | .even => 0 | .twoDesk => 1), BitVec.ofNat 8 s.straps.engine.val,
          (match h.port with | .a => 0 | .b => 1 | .c => 2), 0x00, 0x20] ++
        lowHigh s.mem.allocatable ++
        [BitVec.ofNat 8 s.mem.spares.length, BitVec.ofNat 8 s.integ.retired.length] ++
        lowHigh (s.rate.pick 2048 1024) ++
        (match s.straps.split with
          | .even => lowHigh 2032 ++ lowHigh 2032 ++ lowHigh 2032 ++ lowHigh 2032
          | .twoDesk => lowHigh 3048 ++ lowHigh 3048 ++ lowHigh 508 ++ lowHigh 1524) ++
        (match s.straps.split, s.straps.rate with
          | .even, .k48 => lowHigh 512 ++ lowHigh 512 ++ lowHigh 512 ++ lowHigh 512
          | .even, .k96 => lowHigh 256 ++ lowHigh 256 ++ lowHigh 256 ++ lowHigh 256
          | .twoDesk, .k48 => lowHigh 768 ++ lowHigh 768 ++ lowHigh 128 ++ lowHigh 384
          | .twoDesk, .k96 => lowHigh 384 ++ lowHigh 384 ++ lowHigh 64 ++ lowHigh 192) ∧
      (identifyBytes r).length = 35) ∧
  ∀ (s : State) (h : Hdr), s.takes h 0x02 = true →
    ∃ t r, exec (.budget h) s = .next t ∧ Unchanged h s t ∧ t.Answered h 0x02 .done none (.budget r) ∧
      r.split = s.straps.split ∧ r.rate = s.straps.rate ∧
      r.pageReserves = pageReserve s.straps ∧ r.pageCommon = pageCommon s.straps ∧
      r.unitReserves = unitReserve s.straps ∧ r.unitCommon = unitCommon s.straps ∧ r.unitBudget = unitBudget s.straps ∧
      (∀ p, r.ports.get p =
        { pages := (s.alloc.charged.get p).pages, units := (s.alloc.charged.get p).units,
          pageExcess := (s.alloc.charged.get p).pages - (pageReserve s.straps).get p,
          unitExcess := (s.alloc.charged.get p).units - (unitReserve s.straps).get p }) ∧
      r.pageExcess = r.ports.a.pageExcess + r.ports.b.pageExcess + r.ports.c.pageExcess ∧
      r.unitExcess = r.ports.a.unitExcess + r.ports.b.unitExcess + r.ports.c.unitExcess ∧
      r.unitsLeft =
        unitBudget s.straps - (s.alloc.charged.a.units + s.alloc.charged.b.units + s.alloc.charged.c.units) ∧
      r.freePages = s.mem.freeIn 0 + s.mem.freeIn 1 + s.mem.freeIn 2 + s.mem.freeIn 3 ∧
      r.spares = s.mem.spares.length ∧ r.waiting = s.alloc.waiting.length ∧ r.banks.length = 4 ∧
      r.retired = (r.banks.map BankBudget.retired).sum ∧ r.withdrawn = (r.banks.map BankBudget.withdrawn).sum ∧
      (s.MemoryCanonical →
        (∀ p c, p < 8192 → s.mem.bankFailed (p / 2048) = true → s.mem.page p ≠ .free c) → ∀ b, b < 4 →
        r.banks[b]? = some
          { failed := s.mem.bankFailed b, free := s.mem.pagesIn b PageState.isFree,
            cleanFree := s.mem.pagesIn b (fun x => decide (x = .free true)),
            spare := s.mem.pagesIn b (fun x => decide (x = .spare true ∨ x = .spare false)),
            retired := s.mem.pagesIn b (fun x => decide (x = .retired)),
            withdrawn := s.mem.pagesIn b (fun x => decide (x = .withdrawn)) }) ∧
      (s.ChargesFit →
        r.pageExcess + r.pageCommonLeft = r.pageCommon ∧ r.unitExcess + r.unitCommonLeft = r.unitCommon ∧
        (∀ n, n ≤ r.pageHeadroom ↔
          n ≤ s.mem.freePages ∧ (s.alloc.charge h.port n 0).pageExcess s.straps ≤ pageCommon s.straps) ∧
        (∀ u, u ≤ r.unitHeadroom ↔
          u ≤ unitBudget s.straps - (s.alloc.charged.a.units + s.alloc.charged.b.units + s.alloc.charged.c.units) ∧
            (s.alloc.charge h.port 0 u).unitExcess s.straps ≤ unitCommon s.straps))

/-- STATUS (R26): nothing changes; a FREE slot answers DONE with the state FREE alone, any other with the fields of its
record that its state and kind have, and a slot above 31 is refused BAD_ARGUMENT. MAP (R124): nothing changes; for a
line of an instance that is not WAITING the reply gives its capacity, P and write position and up to 32 entries from
the start index, each with its page, its bank and whether it is under copy; a FREE or WAITING slot is refused
BAD_STATE. A slot above 31, a line above 8 or a list that is neither is refused BAD_ARGUMENT before that, and a line
the instance lacks, the mirror list of one that has none and a start index beyond the list after it (R5, R124). -/
def Obligations.StatusAndMapReportTheRecord : Prop :=
  (∀ (s : State) (h : Hdr) (slot : Nat), s.takes h 0x03 = true →
    ∃ t, exec (.status h slot) s = .next t ∧ Unchanged h s t ∧
      (31 < slot → t.Answered h 0x03 .refused (some .badArgument) .empty) ∧
      (slot ≤ 31 → s.inst slot = none → t.Answered h 0x03 .done none .statusFree) ∧
      (∀ i, s.inst slot = some i → ∃ r, t.Answered h 0x03 .done none (.status r) ∧
        r.state = i.state ∧ r.owner = i.owner ∧ r.shared = i.shared ∧ r.kind = i.choice.kind ∧
        r.variant = i.choice.variant ∧ r.mirror = i.choice.mirror ∧ r.link = i.link ∧ r.drainLimit = i.drainLimit ∧
        (r.span = match i.choice.kind with
          | .delay | .pingpong | .multitap => some i.choice.span | .reverb | .chorus => none) ∧
        (r.taps = match i.choice.kind with | .multitap => some i.choice.taps | _ => none) ∧
        (r.voices = match i.choice.kind with | .chorus => some i.choice.voices | _ => none) ∧
        (i.state = .waiting → r.lines = none) ∧
        (i.state ≠ .waiting → r.lines = some (i.lines.map fun l => (l.capacity, l.pages.length))) ∧
        (r.drainStart = match i.state with | .draining | .fading => some i.drainStart | _ => none) ∧
        (r.quiet = match i.state with | .draining => some i.quiet | _ => none) ∧
        r.tag = i.tag ∧ r.offer = i.offer.map (fun o => (o.target, o.left)) ∧ r.saturation = i.saturation ∧
        r.poison = i.poison ∧ r.pages = i.pages ∧ r.units = i.units)) ∧
  (∀ (s : State) (h : Hdr) (slot line start : Nat) (which : Sys2Proof.Field PageList), s.takes h 0x04 = true →
    (31 < slot ∨ 8 < line ∨ which = .absent ∨ which = .unknown →
      Refuses (.map h slot line which start) h 0x04 .badArgument s) ∧
    ∀ i p, slot ≤ 31 → line ≤ 8 → which = .is p → s.inst slot = some i → i.state ≠ .waiting →
      (i.lines[line]? = none ∨ (p = .mirror ∧ i.choice.mirror = false) ∨
        (∃ l, i.lines[line]? = some l ∧ l.pages.length ≤ start)) →
      Refuses (.map h slot line which start) h 0x04 .badArgument s) ∧
  ∀ (s : State) (h : Hdr) (slot line start : Nat) (which : PageList), s.takes h 0x04 = true → slot ≤ 31 → line ≤ 8 →
    ∃ t, exec (.map h slot line (.is which) start) s = .next t ∧ Unchanged h s t ∧
      (s.inst slot = none → t.Answered h 0x04 .refused (some .badState) .empty) ∧
      (∀ i, s.inst slot = some i → i.state = .waiting → t.Answered h 0x04 .refused (some .badState) .empty) ∧
      (∀ i l, s.inst slot = some i → i.state ≠ .waiting → i.lines[line]? = some l → start < l.pages.length →
        (which = .mirror → i.choice.mirror = true) →
        ∃ es, t.Answered h 0x04 .done none (.map l.capacity l.pages.length l.writePos es) ∧
          es.length = min 32 ((match which with | .primary => l.pages | .mirror => l.mirrors).length - start) ∧
          ∀ k e, es[k]? = some e →
            e.pos = start + k ∧ (match which with | .primary => l.pages | .mirror => l.mirrors)[start + k]? = some e.page ∧
            e.bank = e.page / 2048 ∧ e.bankFailed = s.mem.bankFailed e.bank ∧
            (e.migrating = true ↔ ∃ c, s.integ.copy = some c ∧ c.source = e.page))

/-- The FREE pages that a bank has left once the pages `given` are given; none in a FAILED bank. -/
def leftIn (m : DelayMem) (given : List Nat) (b : Nat) : Nat :=
  m.freeIn b - given.countP fun p => decide (p / 2048 = b)

/-- A page that is the one to be taken within its bank once the pages `given` are given (R110): the lowest clean FREE one,
else the lowest FREE one. -/
def TakenIn (m : DelayMem) (given : List Nat) (p : Nat) : Prop :=
  p ∉ given ∧ ∀ x, x / 2048 = p / 2048 → x ∉ given →
    (m.page x = .free true → m.page p = .free true ∧ p ≤ x) ∧
    (m.page p ≠ .free true → (m.page x).isFree = true → p ≤ x)

/-- The spare pool in its order (R109), and how pages are given to lines (R110, R111): the spare at place `n` is the
highest page but `n / 4`, not RETIRED, of bank `3 - n mod 4`; within a bank the lowest clean FREE page is taken, else
the lowest FREE one; a line starts in the OK bank with the most FREE pages and goes on in rotation, passing over the
banks that are FAILED or have no FREE page left, and over no other; a mirrored line takes each pair in two banks, the
primary page in the OK bank that then has the most FREE pages, the mirror page in the one that has the most among the
others, the lowest-numbered on a tie. -/
def Obligations.PagesAreGivenByBanks : Prop :=
  (∀ (retired : List Nat) (n p : Nat), retired.length ≤ 64 → retired.Nodup →
    (DelayMem.spareBuild retired)[n]? = some p →
    p / 2048 = 3 - n % 4 ∧ p < 8192 ∧ p ∉ retired ∧
    ((List.range 2048).countP fun k =>
      decide (p < p / 2048 * 2048 + k ∧ p / 2048 * 2048 + k ∉ retired)) = n / 4) ∧
  (∀ (m : DelayMem) (b q : Nat), m.tableWf = true → m.bankFailed b = false → q / 2048 = b →
    (m.page q).isFree = true →
    ∃ p, m.choosePage b = some p ∧ p / 2048 = b ∧ (m.page p).isFree = true ∧
      (m.page q = .free true → m.page p = .free true ∧ p ≤ q) ∧
      ((∀ x, x / 2048 = b → m.page x ≠ .free true) → p ≤ q)) ∧
  (∀ (m : DelayMem) (exclude : Option Nat) (b : Nat), m.mostFree exclude = some b →
    b < 4 ∧ exclude ≠ some b ∧ 0 < m.freeIn b ∧
    ∀ c, c < 4 → exclude ≠ some c → m.freeIn c ≤ m.freeIn b ∧ (m.freeIn c = m.freeIn b → b ≤ c)) ∧
  (∀ (m : DelayMem) (slot line count : Nat) (g : DelayMem.Giving), m.tableWf = true → count ≤ m.freePages →
    g = DelayMem.giveLine m slot line count false → g.pages.length = count ∧ g.mirrors = [] ∧
    ∀ (n p : Nat), g.pages[n]? = some p → ∀ left : Nat → Nat, (∀ b, left b = leftIn m (g.pages.take n) b) →
      p / 2048 < 4 ∧ m.bankFailed (p / 2048) = false ∧ (m.page p).isFree = true ∧
      g.mem.page p = .allocated { slot := slot, line := line, pos := n, list := .primary } ∧
      (n = 0 → m.mostFree none = some (p / 2048)) ∧
      (∀ q, 1 ≤ n → g.pages[n - 1]? = some q → ∃ j, 1 ≤ j ∧ j ≤ 4 ∧ p / 2048 = (q / 2048 + j) % 4 ∧
        ∀ k, 1 ≤ k → k < j → left ((q / 2048 + k) % 4) = 0) ∧
      TakenIn m (g.pages.take n) p) ∧
  (∀ (m : DelayMem) (slot line count : Nat) (g : DelayMem.Giving), m.tableWf = true →
    g = DelayMem.giveLine m slot line count true → g.mirrors.length = g.pages.length ∧
    ∀ (n p q : Nat), g.pages[n]? = some p → g.mirrors[n]? = some q →
      ∀ (given : List Nat) (left : Nat → Nat), given = g.pages.take n ++ g.mirrors.take n → (∀ b, left b = leftIn m given b) →
      p / 2048 ≠ q / 2048 ∧ p / 2048 < 4 ∧ q / 2048 < 4 ∧ 0 < left (p / 2048) ∧ 0 < left (q / 2048) ∧
      (∀ b, b < 4 → left b ≤ left (p / 2048) ∧ (left b = left (p / 2048) → p / 2048 ≤ b)) ∧
      (∀ b, b < 4 → b ≠ p / 2048 → left b ≤ left (q / 2048) ∧ (left b = left (q / 2048) → q / 2048 ≤ b)) ∧
      TakenIn m given p ∧ TakenIn m given q ∧
      (m.page p).isFree = true ∧ g.mem.page p = .allocated { slot := slot, line := line, pos := n, list := .primary } ∧
      (m.page q).isFree = true ∧ g.mem.page q = .allocated { slot := slot, line := line, pos := n, list := .mirror })

/-! ## Choices, charges and the parameter tables -/

/-- A form of CREATE that R6 step 1 does not refuse: a known kind, the variant or mode, the span, the tap capacity and the
voice capacity that it takes and no others (R47), and a mirror choice that is yes, no or missing (R47, R168). -/
def FormFits (f : CreateForm) : Prop :=
  ∃ kind, f.kind = .is kind ∧ f.mirror ≠ .unknown ∧
    match kind with
    | .reverb => (f.variant = .is .room ∨ f.variant = .is .hall ∨ f.variant = .is .plate) ∧
        f.span = none ∧ f.taps = none ∧ f.voices = none
    | .delay | .pingpong => f.variant = .absent ∧ f.span ≠ none ∧ f.taps = none ∧ f.voices = none
    | .multitap => f.variant = .absent ∧ f.span ≠ none ∧ f.taps ≠ none ∧ f.voices = none
    | .chorus => (f.variant = .is .chorus ∨ f.variant = .is .flange) ∧ f.span = none ∧ f.taps = none ∧ f.voices ≠ none

/-- The capacities of the lines of an instance, in list order (R48, the tables of R54). -/
def linesOf (r : Rate) (c : Choice) : List Nat :=
  match c.kind with
  | .delay | .multitap => [c.span + 1]
  | .pingpong => [c.span + 1, c.span + 1]
  | .chorus => List.replicate c.voices (r.pick 1920 3840)
  | .reverb =>
    match c.variant with
    | some .room => r.pick [4801, 135, 102, 351, 258, 1395, 1728, 2010, 2304]
        [9601, 269, 203, 701, 515, 2790, 3456, 4020, 4608]
    | some .hall => r.pick [12001, 214, 162, 570, 417, 2961, 3765, 4293, 5121]
        [24001, 427, 323, 1139, 833, 5922, 7530, 8586, 10242]
    | _ => r.pick [12001, 81, 108, 297, 396, 1845, 2208, 2559, 2961]
        [24001, 161, 215, 593, 791, 3690, 4416, 5118, 5922]

/-- The page positions that an instance needs, P of each line (R48, Q of R111). -/
def positionsOf (r : Rate) (c : Choice) : Nat := ((linesOf r c).map fun cap => (cap + 1023) / 1024 + 1).sum

/-- The pages that an instance is charged (R48). -/
def pagesOf (r : Rate) (c : Choice) : Nat := positionsOf r c * if c.mirror = true then 2 else 1

/-- The units that an instance is charged (R49). -/
def unitsOf (r : Rate) (c : Choice) : Nat :=
  (match c.kind with
    | .reverb => 200 | .delay => 40 | .pingpong => 64 | .multitap => 24 + 10 * c.taps | .chorus => 32 + 12 * c.voices) +
  if c.mirror = true then 2 * (linesOf r c).length else 0

/-- The FREE pages of a bank; a FAILED bank has none (R107). -/
def freeOf (m : DelayMem) (b : Nat) : Nat := if m.bankFailed b = true then 0 else m.pagesIn b PageState.isFree

/-- What the three ports are charged beyond their reserves, with `add` more for port `p` (R119). -/
def beyond (charged reserve : Port → Nat) (p : Port) (add : Nat) : Nat :=
  (allPorts.map fun q => charged q + (if q = p then add else 0) - reserve q).sum

/-- The test of a charge to port `p` for the choices `c` (R120): the reason of the first of the four conditions that fails,
the first of them by R111 for a mirrored instance; none where all hold. -/
def chargeOutcome (s : State) (p : Port) (c : Choice) : Option Reason :=
  let q := positionsOf s.rate c
  let free := freeOf s.mem
  let pages := fun x => (s.alloc.charged.get x).pages
  let units := fun x => (s.alloc.charged.get x).units
  if (if c.mirror = true then min (free 0) q + min (free 1) q + min (free 2) q + min (free 3) q < 2 * q
      else free 0 + free 1 + free 2 + free 3 < pagesOf s.rate c) then some .noPages
  else if (match s.straps.split with | .even => 2032 | .twoDesk => 1524) <
      beyond pages (fun x => match s.straps.split, x with
        | .even, _ => 2032 | .twoDesk, .c => 508 | .twoDesk, _ => 3048) p (pagesOf s.rate c) then some .noPages
  else if s.rate.pick 2048 1024 - (units .a + units .b + units .c) < unitsOf s.rate c then some .noUnits
  else if (match s.straps.split with | .even => s.rate.pick 512 256 | .twoDesk => s.rate.pick 384 192) <
      beyond units (fun x => match s.straps.split, x with
        | .even, _ => s.rate.pick 512 256 | .twoDesk, .c => s.rate.pick 128 64
        | .twoDesk, _ => s.rate.pick 768 384) p (unitsOf s.rate c) then some .noUnits
  else none

/-- The parameters that an instance has, by number, with the form, the range, the default, the minimum ramp in milliseconds
and whether it is DISCRETE (R50, R56, R59, R62, R65, R69, R74; that GLIDE and SINE count as 0 is log entry 14). -/
def paramRows (r : Rate) (c : Choice) : List (Nat × PSpec) :=
  [(0, ⟨.gain, -32768, 32767, 16384, 10, false⟩), (1, ⟨.plain, 0, 2000, 100, 0, false⟩)] ++
  match c.kind with
  | .reverb =>
    let pick := fun (room hall plate : Int) => match c.variant with | some .room => room | some .hall => hall | _ => plate
    [(2, ⟨.plain, 2, 200, pick 12 24 18, 0, false⟩), (3, ⟨.plain, 50, 150, 100, 200, false⟩),
     (4, ⟨.millis, 0, pick 100 250 250, pick 10 25 0, 0, false⟩), (5, ⟨.plain, 10, 200, pick 80 60 120, 0, false⟩),
     (6, ⟨.plain, 0, 100, pick 60 70 85, 0, false⟩), (7, ⟨.plain, 0, 32, pick 4 8 2, 0, false⟩),
     (8, ⟨.rate, 5, 500, pick 80 50 30, 0, false⟩)]
  | .delay =>
    [(2, ⟨.samples, 1, c.span, r.pick 24000 48000, 0, false⟩), (3, ⟨.plain, -32440, 32440, 9830, 10, false⟩),
     (4, ⟨.plain, 10, 200, 80, 0, false⟩), (5, ⟨.plain, 0, 100, 0, 0, false⟩), (6, ⟨.rate, 5, 500, 30, 0, false⟩),
     (7, ⟨.named, 0, 1, 1, 0, true⟩)]
  | .pingpong =>
    [(2, ⟨.samples, 1, c.span, r.pick 18000 36000, 0, false⟩), (3, ⟨.samples, 1, c.span, r.pick 18000 36000, 0, false⟩),
     (4, ⟨.plain, -32440, 32440, 0, 10, false⟩), (5, ⟨.plain, -32440, 32440, 13107, 10, false⟩),
     (6, ⟨.plain, 10, 200, 80, 0, false⟩), (7, ⟨.named, 0, 1, 1, 0, true⟩)]
  | .multitap =>
    [(2, ⟨.plain, 1, c.taps, c.taps, 0, true⟩), (3, ⟨.plain, -32440, 32440, 0, 10, false⟩),
     (4, ⟨.plain, 10, 200, 80, 0, false⟩)] ++
    (List.range c.taps).flatMap fun n =>
      [(3 * (n + 1) + 5, ⟨.samples, 1, c.span, r.pick 6000 12000 * (n + 1), 0, false⟩),
       (3 * (n + 1) + 6, ⟨.plain, -32768, 32767, 16384, 10, false⟩),
       (3 * (n + 1) + 7, ⟨.plain, -100, 100, if (n + 1) % 2 = 1 then -50 else 50, 0, false⟩)]
  | .chorus =>
    if c.variant = some .flange then
      [(2, ⟨.plain, 1, c.voices, c.voices, 0, true⟩), (3, ⟨.base, 10, 1000, 200, 0, false⟩),
       (4, ⟨.plain, 0, 1000, 150, 0, false⟩), (5, ⟨.rate, 1, 2000, 20, 0, false⟩), (6, ⟨.named, 0, 1, 1, 0, true⟩),
       (7, ⟨.plain, 0, 360, 180, 0, false⟩), (8, ⟨.plain, -32440, 32440, 16384, 10, false⟩)]
    else
      [(2, ⟨.plain, 1, c.voices, c.voices, 0, true⟩), (3, ⟨.base, 100, 3000, 1500, 0, false⟩),
       (4, ⟨.plain, 0, 1000, 200, 0, false⟩), (5, ⟨.rate, 1, 2000, 80, 0, false⟩), (6, ⟨.named, 0, 1, 0, 0, true⟩),
       (7, ⟨.plain, 0, 360, 90, 0, false⟩), (8, ⟨.plain, 0, 0, 0, 10, false⟩)]

/-- The value that a parameter has at creation (R50): its default, at the upper end of its range where it lies beyond, a
time in 1/256 sample and at least 256 (a BASE_DELAY by log entry 18), and unity for OUT_GAIN. -/
def StartsAt (r : Rate) (sp : PSpec) (v : Val) : Prop :=
  ∀ x : Int, x = (if sp.hi < sp.dflt then sp.hi else sp.dflt) →
    match sp.form with
    | .gain => v = { m := 16384, e := 1 }
    | .samples => v = { m := max 256 (x * 256), e := 0 }
    | .millis => v = { m := max 256 (x * r.pick 48 96 * 256), e := 0 }
    | .base => ∃ q : Nat, Nearest q (x.toNat * r.hz * 256) 100000 ∧ v = { m := max 256 (q : Int), e := 0 }
    | .plain | .named | .rate => v = { m := x, e := 0 }

/-! ## Instances -/

/-- CREATE (R6, R7, R47). It completes: where the form is one that R6 takes, a slot is FREE that it names or that ANY
finds, and the charge is admitted, the record is set up as R7 gives and enters PRIMING. A form is refused BAD_ARGUMENT
with an unknown kind, with a variant or mode, a span, a tap capacity or a voice capacity that the kind does not take or
that is missing, or with a mirror choice that is neither yes nor no (R168); a missing mirror choice is taken as no. A
slot above 31 is BAD_ARGUMENT, one that is not FREE and a full table are NO_SLOT. The slot named, or the lowest FREE
one for ANY, is asked a charge of the pages and units of R48 and R49 by the four conditions of R120: refused, the reply
carries the reason and nothing is charged. Admitted, each parameter stands at its default in the tables of its kind (a
BASE_DELAY by log entry 18), each oscillator that its kind has at phase 0 (R40), its envelope is CLEAR (R46), the
outputs of the frame before are zero, the decay gains of a REVERB are those of its defaults (R39, rounded by log entry
17), each line has its capacity by R48 and R54 and holds its P pages, and as many mirror pages where it is mirrored,
which become ALLOCATED at their places, and those of them that were not clean are queued in the order of R116 behind
those queued before. (`ending` is the model's own: no step of the end of a frame is acting.) -/
def Obligations.CreatePrimesOrRefusesWhole : Prop :=
  ∀ (s : State) (h : Hdr) (arg : SlotArg) (f : CreateForm), s.takes h 0x10 = true → s.ending = false →
    s.MemoryCanonical →
    (¬ FormFits f → Refuses (.create h arg f) h 0x10 .badArgument s) ∧ (formOk f = true ↔ FormFits f) ∧
    (∀ (p : Port) (c : Choice), s.chargeTest p c = chargeOutcome s p c) ∧
    (∀ k, arg = .named k → 31 < k → Refuses (.create h arg f) h 0x10 .badArgument s) ∧
    (FormFits f → ∀ k, arg = .named k → k ≤ 31 → s.inst k ≠ none → Refuses (.create h arg f) h 0x10 .noSlot s) ∧
    (FormFits f → arg = .any → (∀ k, k ≤ 31 → s.inst k ≠ none) → Refuses (.create h arg f) h 0x10 .noSlot s) ∧
    ∀ (slot : Nat) (kind : Kind) (made : Choice), FormFits f → f.kind = .is kind → slot ≤ 31 → s.inst slot = none →
      (arg = .named slot ∨ (arg = .any ∧ ∀ j, j < slot → s.inst j ≠ none)) →
      ∀ longest : Nat, longest = (match kind with | .delay => s.rate.pick 10000 5000 | _ => s.rate.pick 5000 2500) →
      made =
        { kind := kind, variant := (match f.variant with | .is v => some v | _ => none),
          span := (match f.span with | some x => max 10 (min longest x) * s.rate.pick 48 96 | none => 0),
          taps := (match f.taps with | some x => max 1 (min 8 x) | none => 0),
          voices := (match f.voices with | some x => max 1 (min 4 x) | none => 0),
          mirror := decide (f.mirror = .is true) } →
      (∀ why, chargeOutcome s h.port made = some why → Refuses (.create h arg f) h 0x10 why s) ∧
      (chargeOutcome s h.port made = none →
        ∃ (t : State) (i : Inst) (dirty : List Nat) (n u : Nat) (names : List ClampName),
          exec (.create h arg f) s = .next t ∧ PortsKept h s t ∧ OtherSlots s t slot ∧
          { t with ports := s.ports, insts := s.insts, mem := s.mem, alloc := s.alloc } = s ∧
          names = (match f.span with | some x => if 10 ≤ x ∧ x ≤ longest then [] else [.span] | none => []) ++
            (match f.taps with | some x => if 1 ≤ x ∧ x ≤ 8 then [] else [.tapCapacity] | none => []) ++
            (match f.voices with | some x => if 1 ≤ x ∧ x ≤ 4 then [] else [.voiceCapacity] | none => []) ++
            (match f.drain with | some d => if 5 ≤ d ∧ d ≤ 200 then [] else [.drainLimit] | none => []) ∧
          t.Answered h 0x10 (doneOr names) none (.created slot n u names) ∧
          t.inst slot = some i ∧ i.state = .priming ∧ i.owner = h.port ∧ i.shared = false ∧ i.choice = made ∧
          i.drainLimit = (match f.drain with | none => 80 | some d => max 5 (min 200 d)) ∧ i.link = none ∧
          i.offer = none ∧ i.tag = none ∧ i.saturation = 0 ∧ i.poison = 0 ∧ i.updates = [] ∧ i.dip.phase = .none ∧
          i.params = defaultParams s.rate i.choice ∧
          i.oscs = List.replicate (match kind with | .reverb | .delay => 1 | .chorus => made.voices | _ => 0)
            { phase := 0, last := 0, wrapped := false, moved := false, acted := false } ∧
          i.env.phase = .clear ∧ i.poisoned = false ∧ i.outL = 0 ∧ i.outR = 0 ∧ i.ret = 0 ∧
          (∀ d z, kind = .reverb → (2, d) ∈ paramRows s.rate made → (3, z) ∈ paramRows s.rate made →
            i.decay.decay = d.dflt ∧ i.decay.size = z.dflt ∧
            DecayGains s.rate made.variant d.dflt.toNat z.dflt.toNat i.decay.gains) ∧
          (∀ k sp, (k, sp) ∈ paramRows s.rate made → ∃ v, StartsAt s.rate sp v ∧ i.param k = some
            { num := k, prev := v, value := v, target := v, ramp := none, discrete := sp.discrete, division := none,
              xfade := none, waiting := none }) ∧
          (∀ k, (∀ sp, (k, sp) ∉ paramRows s.rate made) → i.param k = none) ∧
          i.sends = Vector.replicate 4 none ∧ i.left = Vector.replicate 2 none ∧ i.right = Vector.replicate 2 none ∧
          lineCapacities s.rate made = linesOf s.rate made ∧ i.lines.map Line.capacity = linesOf s.rate made ∧
          (∀ l, l ∈ i.lines → l.writePos = 0 ∧ l.damp = 0 ∧ l.pages.length = (l.capacity + 1023) / 1024 + 1 ∧
            l.mirrors.length = if f.mirror = .is true then (l.capacity + 1023) / 1024 + 1 else 0) ∧
          (∀ k l n p, i.lines[k]? = some l →
            (l.pages[n]? = some p → t.mem.page p = .allocated { slot := slot, line := k, pos := n, list := .primary }) ∧
            (l.mirrors[n]? = some p → t.mem.page p = .allocated { slot := slot, line := k, pos := n, list := .mirror })) ∧
          (∀ p, p ∉ State.instPages i → t.mem.page p = s.mem.page p) ∧
          n = pagesOf s.rate made ∧ u = unitsOf s.rate made ∧ i.pages = n ∧ i.units = u ∧
          (∀ p, t.alloc.charged.get p = if p = h.port then
              { pages := (s.alloc.charged.get p).pages + n, units := (s.alloc.charged.get p).units + u }
            else s.alloc.charged.get p) ∧
          t.alloc.waiting = s.alloc.waiting ∧ t.mem.samples = s.mem.samples ∧
          dirty = (State.instPages i).filter (fun p => decide (s.mem.page p ≠ .free true)) ∧
          t.mem.priming = s.mem.priming ++ dirty.map fun p => (p, slot))

/-- R5: for RELEASE, HOLD, UNHOLD, SHARE and GIVE a slot above 31 is BAD_ARGUMENT before a FREE slot is BAD_STATE,
before a port that is not the owner is NOT_OWNER; for ACCEPT and DECLINE an instance without an offer is BAD_STATE to
every port, and one with an offer is NOT_OWNER to a port that is not its target. -/
def Obligations.InstanceRequestsAreCheckedInOrder : Prop :=
  ∀ (s : State) (h : Hdr) (slot : Nat) (on : Bool) (q : Port),
    (∀ c code, (c, code) ∈ ([(.release h slot (.is .tail) none, 0x11), (.release h slot (.is .cut) none, 0x11),
        (.hold h slot, 0x12), (.unhold h slot, 0x13), (.share h slot (.is on), 0x14),
        (.give h slot (.is q), 0x15)] : List (Instr × Byte)) → s.takes h code = true →
      (31 < slot → Refuses c h code .badArgument s) ∧
      (slot ≤ 31 → s.inst slot = none → Refuses c h code .badState s) ∧
      (∀ i, s.inst slot = some i → i.owner ≠ h.port → Refuses c h code .notOwner s) ∧
      (∀ i, s.inst slot = some i → i.owner = h.port → i.state = .waiting → Refuses c h code .badState s)) ∧
    (∀ c code, (c, code) ∈ ([(.accept h slot, 0x16), (.decline h slot, 0x17)] : List (Instr × Byte)) →
      s.takes h code = true →
      (31 < slot → Refuses c h code .badArgument s) ∧
      (slot ≤ 31 → s.inst slot = none → Refuses c h code .badState s) ∧
      (∀ i, s.inst slot = some i → i.offer = none → Refuses c h code .badState s) ∧
      (∀ i o, s.inst slot = some i → i.offer = some o → o.target ≠ h.port → Refuses c h code .notOwner s))

/-- RELEASE (R12, R13, R16, R22) of a RUNNING or HELD instance: with TAIL it enters DRAINING from the present frame,
with CUT, or from DRAINING, FADING in its first fade frame; a HELD one begins its return, its sends ramp to zero,
pending updates go, and a standing offer is cancelled with its notices; another drain limit may be given with TAIL.
(That the detail of the cancelled offer carries the slot is log entry 63.) -/
def Obligations.ReleaseLetsRingOrFades : Prop :=
  ∀ (s : State) (h : Hdr) (slot : Nat) (i : Inst),
    s.takes h 0x11 = true → s.inst slot = some i → i.owner = h.port → i.OfferApart →
    (∀ drain, (i.state = .running ∨ i.state = .held) →
      ∃ t j names, exec (.release h slot (.is .tail) drain) s = .next t ∧ PortsKept h s t ∧ OtherSlots s t slot ∧
        { t with ports := s.ports, insts := s.insts, notices := s.notices } = s ∧
        names = (match drain with | some d => if 5 ≤ d ∧ d ≤ 200 then [] else [.drainLimit] | none => []) ∧
        t.Answered h 0x11 (doneOr names) none (.clamped names) ∧
        t.inst slot = some j ∧ LetsGo s.rate (s.rate.pick 480 960) i j ∧ j.core = i.core ∧ j.state = .draining ∧
        j.drainStart = s.frame ∧ j.drainLimit = (match drain with | some d => max 5 (min 200 d) | none => i.drainLimit) ∧
        j.quiet = 0 ∧ j.ret = (if i.state = .held then 1 else i.ret) ∧ j.fade = i.fade ∧ j.byLimit = i.byLimit ∧
        ∀ q, t.np q = OfferTold s slot i q) ∧
    (i.state = .running ∨ i.state = .held ∨ i.state = .draining →
      ∃ t j, exec (.release h slot (.is .cut) none) s = .next t ∧ PortsKept h s t ∧ OtherSlots s t slot ∧
        { t with ports := s.ports, insts := s.insts, notices := s.notices } = s ∧
        t.Answered h 0x11 .done none .empty ∧
        t.inst slot = some j ∧ LetsGo s.rate (s.rate.pick 480 960) i j ∧ j.core = i.core ∧ j.state = .fading ∧
        j.drainStart = (if i.state = .draining then i.drainStart else s.frame) ∧ j.drainLimit = i.drainLimit ∧
        j.quiet = i.quiet ∧ j.fade = 1 ∧ j.byLimit = false ∧ j.ret = (if i.state = .held then 1 else i.ret) ∧
        ∀ q, t.np q = OfferTold s slot i q) ∧
    (∀ drain, i.state = .draining ∨ i.state = .fading →
      Refuses (.release h slot (.is .tail) drain) h 0x11 .badState s) ∧
    (i.state = .fading → Refuses (.release h slot (.is .cut) none) h 0x11 .badState s)

/-- An instance becomes FREE as R17 gives: DRAIN_QUIET (R14), FADE_COMPLETE (R16) and RELEASE of a PRIMING instance
(R12), with no instance waiting for what it frees; each page it returns is FREE and not clean in an OK bank, WITHDRAWN
in a FAILED one (R112), but for one under way to retirement (R134, R138). The two events raise FREED with the reason
QUIET, LIMIT or CUT at the owner, in the frame that has ended (log entry 15); the release raises no INSTANCE notice. -/
def Obligations.FreedInstanceReturnsItsCharge : Prop :=
  ∀ (s : State) (slot : Nat) (i : Inst), s.inst slot = some i → s.alloc.waiting = [] → s.mem.tableWf = true →
    (s.running = true → i.state = .draining → s.rate.pick 4800 9600 ≤ i.quiet →
      ∃ t, exec (.drainQuiet slot) s = .next t ∧ Freed s t slot i ∧ t.mem.samples = s.mem.samples ∧
        RaisedOnce s t i.owner .inst (.freed slot .quiet) (s.frame - 1) ∧
        { t with insts := s.insts, mem := s.mem, alloc := s.alloc, integ := s.integ, clocks := s.clocks,
                 recalls := s.recalls, lanes := s.lanes, notices := s.notices } = s) ∧
    (s.running = true → i.state = .fading → s.rate.pick 2400 4800 < i.fade →
      ∃ t, exec (.fadeComplete slot) s = .next t ∧ Freed s t slot i ∧ t.mem.samples = s.mem.samples ∧
        RaisedOnce s t i.owner .inst (.freed slot (if i.byLimit then .limit else .cut)) (s.frame - 1) ∧
        { t with insts := s.insts, mem := s.mem, alloc := s.alloc, integ := s.integ, clocks := s.clocks,
                 recalls := s.recalls, lanes := s.lanes, notices := s.notices } = s) ∧
    (∀ h mode, s.takes h 0x11 = true → i.owner = h.port → i.state = .priming →
      ∃ t, exec (.release h slot (.is mode) none) s = .next t ∧ Freed s t slot i ∧ t.mem.samples = s.mem.samples ∧
        t.Answered h 0x11 .done none (match mode with | .tail => .clamped [] | .cut => .empty) ∧ PortsKept h s t ∧
        (∀ q, (t.np q).classes.get NoticeClass.inst.idx = (s.np q).classes.get NoticeClass.inst.idx) ∧
        { t with ports := s.ports, insts := s.insts, mem := s.mem, alloc := s.alloc, integ := s.integ,
                 clocks := s.clocks, recalls := s.recalls, lanes := s.lanes, notices := s.notices } = s) ∧
    (s.running = true → i.state ≠ .draining ∨ i.quiet < s.rate.pick 4800 9600 → exec (.drainQuiet slot) s = .next s) ∧
    (s.running = true → i.state ≠ .fading ∨ i.fade ≤ s.rate.pick 2400 4800 → exec (.fadeComplete slot) s = .next s)

/-- HOLD (R10) makes a RUNNING instance HELD with its live sends on a ramp to zero, UNHOLD (R11) a HELD one RUNNING
with its live sends on a ramp to their set gains and its return begun; in any other state each is BAD_STATE. SHARE
(R18) sets the flag in every state but WAITING. GIVE (R19) puts an offer on a RUNNING or HELD instance without one, to
another port whose link is UP, with a window of 240,000/480,000 frames, and raises OFFERED there; its refusals. -/
def Obligations.HoldShareAndGiveActOnTheRecord : Prop :=
  (∀ (s : State) (h : Hdr) (slot : Nat) (i : Inst),
    s.inst slot = some i → i.owner = h.port →
    (s.takes h 0x12 = true → i.state = .running → ∃ t j, exec (.hold h slot) s = .next t ∧ OnlySlot h s t slot ∧
      t.Answered h 0x12 .done none .empty ∧ t.inst slot = some j ∧ j.state = .held ∧ j.ret = 0 ∧
      SendsRamp (s.rate.pick 480 960) (fun _ => 0) i.sends j.sends ∧
      { j with sends := i.sends, state := i.state, ret := i.ret } = i) ∧
    (s.takes h 0x13 = true → i.state = .held → ∃ t j, exec (.unhold h slot) s = .next t ∧ OnlySlot h s t slot ∧
      t.Answered h 0x13 .done none .empty ∧ t.inst slot = some j ∧ j.state = .running ∧ j.ret = 1 ∧
      SendsRamp (s.rate.pick 480 960) Path.setGain i.sends j.sends ∧
      { j with sends := i.sends, state := i.state, ret := i.ret } = i) ∧
    (s.takes h 0x12 = true → i.state ≠ .running → Refuses (.hold h slot) h 0x12 .badState s) ∧
    (s.takes h 0x13 = true → i.state ≠ .held → Refuses (.unhold h slot) h 0x13 .badState s)) ∧
  ∀ (s : State) (h : Hdr) (slot : Nat) (i : Inst),
    s.inst slot = some i → i.owner = h.port →
    (∀ on, s.takes h 0x14 = true → i.state ≠ .waiting → ∃ t, exec (.share h slot (.is on)) s = .next t ∧ OnlySlot h s t slot ∧
      t.Answered h 0x14 .done none .empty ∧ t.inst slot = some { i with shared := on }) ∧
    (∀ q, s.takes h 0x15 = true → (i.state = .running ∨ i.state = .held) → q ≠ h.port → i.offer = none →
      s.linkUp q = true →
      ∃ t, exec (.give h slot (.is q)) s = .next t ∧ PortsKept h s t ∧ OtherSlots s t slot ∧
        { t with ports := s.ports, insts := s.insts, notices := s.notices } = s ∧
        t.Answered h 0x15 .done none .empty ∧
        t.inst slot = some { i with offer := some { target := q, left := s.rate.pick 240000 480000 } } ∧
        t.np q = (s.np q).raise .handover { detail := .offered slot h.port, frame := s.frame } ∧
        OtherNotices s t q) ∧
    (s.takes h 0x15 = true → i.state = .running ∨ i.state = .held → Refuses (.give h slot (.is h.port)) h 0x15 .badArgument s) ∧
    (∀ q, s.takes h 0x15 = true → q ≠ h.port →
      (i.state ≠ .running ∧ i.state ≠ .held) ∨ i.offer ≠ none ∨ s.linkUp q = false →
      Refuses (.give h slot (.is q)) h 0x15 .badState s)

/-- ACCEPT (R20) with no instance waiting: where the charges after the move keep within the common shares, the owner is
the target, the charges and the linked count move, flag, offer and tag go, routes to channels the new owner does not
hold depart, and ACCEPTED is raised at the giver; otherwise NO_PAGES, or NO_UNITS where the pages fit, and the offer
stands. R21: DECLINE from the target, and OFFER_EXPIRED once no frame is left, remove the offer and raise DECLINED or
EXPIRED at the giver, the expiry in the frame that has ended (log entry 15); before its window ends an offer does not
expire. (That the details carry the slot is log entry 63.) -/
def Obligations.OffersEndByAcceptDeclineOrExpiry : Prop :=
  (∀ (s : State) (h : Hdr) (slot : Nat) (i : Inst) (o : Offer) (a : Alloc),
    s.takes h 0x16 = true → s.inst slot = some i → i.offer = some o → o.target = h.port → i.owner ≠ h.port →
    s.alloc.waiting = [] → a.waiting = [] →
    (∀ p, a.charged.get p =
      if p = i.owner then
        { pages := (s.alloc.charged.get p).pages - i.pages, units := (s.alloc.charged.get p).units - i.units }
      else if p = h.port then
        { pages := (s.alloc.charged.get p).pages + i.pages, units := (s.alloc.charged.get p).units + i.units }
      else s.alloc.charged.get p) →
    (a.pageExcess s.straps ≤ pageCommon s.straps → a.unitExcess s.straps ≤ unitCommon s.straps →
      ∃ t j, exec (.accept h slot) s = .next t ∧ PortsKept h s t ∧ OtherSlots s t slot ∧ t.alloc = a ∧
        { t with ports := s.ports, insts := s.insts, alloc := s.alloc, clocks := s.clocks, notices := s.notices } = s ∧
        t.Answered h 0x16 .done none .empty ∧ t.inst slot = some j ∧
        { j with left := i.left, right := i.right } =
          { i with owner := h.port, shared := false, offer := none, tag := none } ∧
        RoutesDepart (s.rate.pick 480 960) (fun x => !s.holds h.port x.chan) i.left j.left ∧
        RoutesDepart (s.rate.pick 480 960) (fun x => !s.holds h.port x.chan) i.right j.right ∧
        (∀ k c, s.clock k = some c → t.clock k = some (if i.link = some k then
          { c with linked := (c.linked.set i.owner (c.linked.get i.owner - 1)).set h.port (c.linked.get h.port + 1) }
          else c)) ∧
        t.np i.owner = (s.np i.owner).raise .handover { detail := .accepted slot, frame := s.frame } ∧
        OtherNotices s t i.owner) ∧
    (pageCommon s.straps < a.pageExcess s.straps → Refuses (.accept h slot) h 0x16 .noPages s) ∧
    (a.pageExcess s.straps ≤ pageCommon s.straps → unitCommon s.straps < a.unitExcess s.straps →
      Refuses (.accept h slot) h 0x16 .noUnits s)) ∧
  ∀ (s : State) (slot : Nat) (i : Inst) (o : Offer), s.inst slot = some i → i.offer = some o →
    (∀ h, s.takes h 0x17 = true → o.target = h.port →
      ∃ t, exec (.decline h slot) s = .next t ∧ PortsKept h s t ∧ OtherSlots s t slot ∧
        { t with ports := s.ports, insts := s.insts, notices := s.notices } = s ∧ t.Answered h 0x17 .done none .empty ∧
        t.inst slot = some { i with offer := none } ∧
        t.np i.owner = (s.np i.owner).raise .handover { detail := .declined slot, frame := s.frame } ∧
        OtherNotices s t i.owner) ∧
    (s.running = true → o.left = 0 →
      ∃ t, exec (.offerExpired slot) s = .next t ∧ OtherSlots s t slot ∧
        { t with insts := s.insts, notices := s.notices } = s ∧ t.inst slot = some { i with offer := none } ∧
        t.np i.owner = (s.np i.owner).raise .handover { detail := .expired slot, frame := s.frame - 1 } ∧
        OtherNotices s t i.owner) ∧
    (s.running = true → 0 < o.left → exec (.offerExpired slot) s = .next s)

/-- INSTANCE_PRIMED (R8): once its last page is cleared a PRIMING instance is RUNNING, its live sends on a ramp to
their set gains over the frames set at its admission, and PRIMED is raised at the owner in the frame that has ended
(log entry 15). DRAIN_LIMIT (R15): in the frame that reaches the limit a DRAINING instance is FADING in its first fade
frame. (That frame is log entry 16.) -/
def Obligations.PrimingAndDrainsEnd : Prop :=
  ∀ (s : State) (slot : Nat) (i : Inst), s.running = true → s.inst slot = some i →
    (i.state = .priming → i.primed = true →
      ∃ t j, exec (.instancePrimed slot) s = .next t ∧ t.inst slot = some j ∧ j.state = .running ∧
        SendsRamp i.primeRamp Path.setGain i.sends j.sends ∧
        { j with state := i.state, sends := i.sends, tag := i.tag } = i ∧
        (∀ k, k ≠ slot →
          (t.inst k).map (fun x => { x with tag := none }) = (s.inst k).map (fun x => { x with tag := none })) ∧
        RaisedOnce s t i.owner .inst (.primed slot) (s.frame - 1) ∧ OtherNotices s t i.owner ∧
        { t with insts := s.insts, recalls := s.recalls, notices := s.notices } = s) ∧
    (i.state ≠ .priming ∨ i.primed = false → exec (.instancePrimed slot) s = .next s) ∧
    (i.state = .draining → i.OfferApart → s.since i.drainStart = i.drainLimit * s.rate.pick 4800 9600 →
      ∃ t j, exec (.drainLimit slot) s = .next t ∧ OtherSlots s t slot ∧ t.inst slot = some j ∧
        { t with insts := s.insts, notices := s.notices } = s ∧ LetsGo s.rate (s.rate.pick 480 960) i j ∧ j.core = i.core ∧
        j.state = .fading ∧ j.fade = 1 ∧ j.byLimit = true ∧ j.drainStart = i.drainStart ∧ j.drainLimit = i.drainLimit ∧
        j.ret = i.ret ∧ j.quiet = i.quiet ∧ ∀ q, t.np q = OfferTold s slot i q) ∧
    (i.state ≠ .draining ∨ s.since i.drainStart ≠ i.drainLimit * s.rate.pick 4800 9600 →
      exec (.drainLimit slot) s = .next s)

/-! ## Parameters -/

/-- SET of OUT_GAIN or of a number or free rate that is CONTINUOUS (R73, R74, R76 to R78, R80), acting at once: the
value is clamped, the ramp held to the parameter's minimum and to 5,000 ms, the value in effect ramps from that of the
frame before, at once in PRIMING; a pending update of the parameter goes, every clamp is named, nothing else changes.
The parameters of a kind, with their forms, ranges, defaults, minimum ramps and classes, are those of the tables (R50,
R56, R59, R62, R65, R69, R74). R75 and R53: SET with a division on a rate parameter, and with a free rate in place of
one, take effect with no ramp and no report of the ramp; a division on a time parameter of an instance without a link
is stored, and the delay in effect stays where it stands: a glide ends at the value of the frame before, a crossfade
goes on to its new head, and no change waits (log entry 20); its reply gives no delay (log entry 75). -/
def Obligations.SetRampsValuesAndStoresDivisions : Prop :=
  (∀ (r : Rate) (c : Choice) (n : Nat) (sp : PSpec), (c.kind = .multitap → c.taps ≤ 8) →
    (paramSpec r c n = some sp ↔ (n, sp) ∈ paramRows r c)) ∧
  (∀ (s : State) (h : Hdr) (slot : Nat) (i : Inst) (f : SetForm) (c : Cond) (sp : PSpec) (p : Param) (target : Val)
    (v : SetValue) (names : List ClampName),
    s.takes h 0x20 = true → s.inst slot = some i → TakesSet h i → f.cond = .is c → ActsNow i c →
    HasRoom i c f.param → paramSpec s.rate i.choice f.param = some sp → i.param f.param = some p →
    ((∃ m e : Int, f.param = 0 ∧ f.value = .gain m e ∧
        target = { m := max (-32768) (min 32767 m), e := max (-6) (min 2 e) } ∧ v = .gain target.m target.e ∧
        names = (if target.m = m then [] else [.coefficient]) ++ (if target.e = e then [] else [.shift])) ∨
      (∃ x : Int, (sp.form = .plain ∨ sp.form = .rate) ∧ sp.discrete = false ∧ p.division = none ∧ f.value = .free x ∧
        target = { m := if x < sp.lo then sp.lo else if sp.hi < x then sp.hi else x, e := 0 } ∧ v = .free target.m ∧
        names = if target.m = x then [] else [.value])) →
    ∃ t j q all, exec (.set h slot f) s = .next t ∧ OnlySlot h s t slot ∧
      all = names ++ (if rampTaken sp f.ramp = f.ramp then [] else [.ramp]) ++ condNames c ∧
      t.Answered h 0x20 (doneOr all) none (.set v (some (rampTaken sp f.ramp)) all) ∧
      t.inst slot = some j ∧ OnlyParam i j f.param ∧ UpdatesLess i j f.param ∧ j.param f.param = some q ∧
      (i.state = .priming → p.Jumps q target) ∧
      (i.state ≠ .priming → p.Moves q target (s.rate.ms (rampTaken sp f.ramp)))) ∧
  ∀ (s : State) (h : Hdr) (slot : Nat) (i : Inst) (f : SetForm) (c : Cond) (sp : PSpec) (p : Param),
    s.takes h 0x20 = true → s.inst slot = some i → TakesSet h i → f.cond = .is c → ActsNow i c →
    HasRoom i c f.param → paramSpec s.rate i.choice f.param = some sp → i.param f.param = some p →
    (∀ code, code ≤ 13 → f.value = .division code → sp.form = .rate →
      ∃ t j, exec (.set h slot f) s = .next t ∧ OnlySlot h s t slot ∧
        t.Answered h 0x20 (doneOr (condNames c)) none
          (.set (.division code none) (some (rampTaken sp f.ramp)) (condNames c)) ∧
        t.inst slot = some j ∧ OnlyParam i j f.param ∧ UpdatesLess i j f.param ∧
        j.param f.param = some { p with division := some code, target := p.value, ramp := none }) ∧
    (∀ (x : Int) code, p.division = some code → f.value = .free x → sp.form = .rate → sp.lo ≤ x → x ≤ sp.hi →
      ∃ t j q, exec (.set h slot f) s = .next t ∧ OnlySlot h s t slot ∧
        t.Answered h 0x20 (doneOr (condNames c)) none (.set (.free x) (some (rampTaken sp f.ramp)) (condNames c)) ∧
        t.inst slot = some j ∧ OnlyParam i j f.param ∧ UpdatesLess i j f.param ∧ j.param f.param = some q ∧
        Param.Jumps { p with division := none } q { m := x, e := 0 }) ∧
    (∀ code, code ≤ 13 → f.value = .division code → (sp.form = .samples ∨ sp.form = .millis) → i.link = none → p.Settled →
      ∃ t j q names, exec (.set h slot f) s = .next t ∧ OnlySlot h s t slot ∧
        names = (if rampTaken sp f.ramp = f.ramp then [] else [.ramp]) ++ condNames c ∧
        t.Answered h 0x20 (doneOr names) none (.set (.division code none) (some (rampTaken sp f.ramp)) names) ∧
        t.inst slot = some j ∧ OnlyParam i j f.param ∧ UpdatesLess i j f.param ∧ j.param f.param = some q ∧
        Param.Stands { p with division := some code } q)

/-- A conditional SET whose condition can occur (R73, R79) is PENDING: it enters the list at its end, or in place of
the entry of its parameter, and moves no parameter; a full list without such an entry refuses it PENDING_FULL. The
checks 1 to 5 of R73 refuse a SET in their order; check 5 refuses a number that the kind does not have, a division for
a parameter that is neither a time nor a rate, and a number that is no name of SHAPE or CHANGE_MODE (log entry 45).
(The ramp of a DISCRETE parameter, not given, is log entry 37; whether a ramp is unused is judged at acceptance, log
entry 48.) -/
def Obligations.ConditionalSetWaitsInTheList : Prop :=
  ∀ (s : State) (h : Hdr) (slot : Nat) (f : SetForm), s.takes h 0x20 = true →
    (∀ (i : Inst) (c : Cond) (sp : PSpec) (v : Accepted) (names : List ClampName),
      s.inst slot = some i → TakesSet h i → f.cond = .is c → ¬ActsNow i c →
      paramSpec s.rate i.choice f.param = some sp → valueFormOk f.param f.value = true →
      acceptValue s.rate sp (s.linkedFpb i) f.value = some (v, names) →
      (HasRoom i c f.param →
        ∃ t j w all, exec (.set h slot f) s = .next t ∧ OnlySlot h s t slot ∧
          w = State.setValue s.rate sp (s.linkedFpb i) v ∧
          all = names ++ (if State.rampUnused sp i f.param v = true ∨ rampTaken sp f.ramp = f.ramp then []
            else [.ramp]) ∧
          t.Answered h 0x20 .pending none (.set w (if sp.discrete then none else some (rampTaken sp f.ramp)) all) ∧
          t.inst slot = some j ∧ { j with updates := i.updates } = i ∧
          ((∀ u, u ∈ i.updates → u.param ≠ f.param) →
            j.updates = i.updates ++
              [{ param := f.param, value := v, ramp := rampTaken sp f.ramp, cond := c }]) ∧
          ((∃ u, u ∈ i.updates ∧ u.param = f.param) →
            j.updates = i.updates.map fun u => if u.param = f.param then
              { param := f.param, value := v, ramp := rampTaken sp f.ramp, cond := c } else u)) ∧
      (¬HasRoom i c f.param → Refuses (.set h slot f) h 0x20 .pendingFull s)) ∧
    (31 < slot ∨ 31 < f.param ∨ f.cond = .unknown ∨ f.cond = .absent ∨ f.value = .unknown ∨
        (∃ code, 13 < code ∧ f.value = .division code) → Refuses (.set h slot f) h 0x20 .badArgument s) ∧
    (∀ c, slot ≤ 31 → f.param ≤ 31 → f.cond = .is c → valueFormOk f.param f.value = true →
      (s.inst slot = none → Refuses (.set h slot f) h 0x20 .badState s) ∧
      ∀ i, s.inst slot = some i →
        (i.owner ≠ h.port → i.shared = false → Refuses (.set h slot f) h 0x20 .notOwner s) ∧
        ((i.owner = h.port ∨ i.shared = true) → i.state = .waiting ∨ i.state = .draining ∨ i.state = .fading →
          Refuses (.set h slot f) h 0x20 .badState s) ∧
        (TakesSet h i → paramSpec s.rate i.choice f.param = none → Refuses (.set h slot f) h 0x20 .badArgument s) ∧
        ∀ sp, TakesSet h i → paramSpec s.rate i.choice f.param = some sp →
          (∀ code, f.value = .division code → sp.form ≠ .samples → sp.form ≠ .millis → sp.form ≠ .rate →
            Refuses (.set h slot f) h 0x20 .badArgument s) ∧
          ∀ x, f.value = .free x → sp.form = .named → (x < 0 ∨ 1 < x) → Refuses (.set h slot f) h 0x20 .badArgument s)

/-- R82 to R84: a SET of a DISCRETE parameter on a RUNNING or HELD instance starts a fall where it changes the value,
joins a fall's switch set or a rise's next set; in PRIMING it acts at once. Its reply is DONE, or CLAMPED with what was
clamped, also where the value then equals the one in effect (log entry 74). DIP_SWITCH after the fall gives the values
of the switch set and begins the rise; DIP_END after the rise ends the dip, or begins a fall with what still changes.
-/
def Obligations.DiscreteParametersSwitchUnderADip : Prop :=
  ∀ (s : State) (slot : Nat) (i : Inst), s.inst slot = some i →
    (∀ (h : Hdr) (f : SetForm) (c : Cond) (sp : PSpec) (p : Param) (x : Int) (names : List ClampName),
      s.takes h 0x20 = true → TakesSet h i → f.cond = .is c → ActsNow i c → HasRoom i c f.param →
      paramSpec s.rate i.choice f.param = some sp → sp.discrete = true → f.param ≠ 0 → i.param f.param = some p →
      acceptValue s.rate sp (s.linkedFpb i) f.value = some (.free x, names) →
      i.dip.pos ≤ s.rate.pick 240 480 →
      ∃ t j, exec (.set h slot f) s = .next t ∧ OnlySlot h s t slot ∧
        t.Answered h 0x20 (doneOr (names ++ condNames c)) none (.set (.free x) none (names ++ condNames c)) ∧
        t.inst slot = some j ∧ UpdatesLess i j f.param ∧
        (i.state = .priming → OnlyParam i j f.param ∧ ∃ q, j.param f.param = some q ∧ p.Jumps q { m := x, e := 0 }) ∧
        (i.state ≠ .priming → { j with dip := i.dip, updates := i.updates } = i ∧ i.DipTakes j f.param x)) ∧
    (s.running = true → i.dip.phase = .fall → s.rate.pick 240 480 < i.dip.pos → (i.dip.switch.map Prod.fst).Nodup →
      ∃ t j, exec (.dipSwitch slot) s = .next t ∧ SlotBecomes s t slot j ∧
        j.dip = { phase := .rise, pos := 1, switch := [], next := i.dip.next } ∧
        { j with dip := i.dip, params := i.params } = i ∧
        (∀ c p, c ∈ i.dip.switch → i.param c.1 = some p →
          ∃ q, j.param c.1 = some q ∧ p.Jumps q { m := c.2, e := 0 }) ∧
        ∀ k, (∀ c, c ∈ i.dip.switch → c.1 ≠ k) → j.param k = i.param k) ∧
    (s.running = true → i.dip.phase = .rise → s.rate.pick 240 480 < i.dip.pos →
      ∃ t j left, exec (.dipEnd slot) s = .next t ∧ SlotBecomes s t slot j ∧ { j with dip := i.dip } = i ∧
        left = i.dip.next.filter (fun c => decide (i.value c.1 ≠ c.2)) ∧
        j.dip = if left = [] then { phase := .none, pos := 0, switch := [], next := [] }
          else { phase := .fall, pos := 1, switch := left, next := [] }) ∧
    (s.running = true → i.dip.phase ≠ .fall ∨ i.dip.pos ≤ s.rate.pick 240 480 →
      exec (.dipSwitch slot) s = .next s) ∧
    (s.running = true → i.dip.phase ≠ .rise ∨ i.dip.pos ≤ s.rate.pick 240 480 → exec (.dipEnd slot) s = .next s)

/-- R85 to R87: a SET of a time parameter with a free value, or with a division while linked, crossfades or glides to
the new delay, becomes the waiting change while a crossfade runs (PENDING), or acts at once in PRIMING. CROSSFADE_END
after the last frame removes the crossfade and starts the waiting change, by the change mode then in effect. (PENDING
with the CONDITION clamp for a conditional SET that becomes the waiting change is log entry 29, BASE_DELAY kept in
1/256 sample log entry 18.) R53: the synced delay of a division is the FPB times its beats, rounded to nearest with
halves up, halved, rounding down, as often as it takes to come to at most the largest delay, 256 times the span or the
predelay maximum in samples. R88, R53: at a new FPB every time parameter that holds a division changes to the synced
delay of its division, with a ramp of the TEMPO_RAMP in effect, as a change of it is made; every other parameter stays.
-/
def Obligations.DelayTimesMoveAndRetarget : Prop :=
  (∀ (code fpb most p q : Nat),
    [(4, 1), (2, 1), (3, 1), (4, 3), (1, 1), (3, 2), (2, 3), (1, 2), (3, 4), (1, 3), (1, 4), (3, 8), (1, 6), (1, 8)][code]? =
      some (p, q) → fpb < 2 ^ 32 →
    Nearest (syncedRaw fpb code) (fpb * p) q ∧
    ∃ k, syncedDelay fpb code most = syncedRaw fpb code / 2 ^ k ∧ syncedDelay fpb code most ≤ most ∧
      ∀ n, n < k → most < syncedRaw fpb code / 2 ^ n) ∧
  (∀ (r : Rate) (sp : PSpec), (sp.form = .samples → 1 ≤ sp.hi → (largestDelay r sp : Int) = 256 * sp.hi) ∧
    (sp.form = .millis → 1 ≤ sp.hi → (largestDelay r sp : Int) = 256 * (sp.hi * r.pick 48 96))) ∧
  (∀ (s : State) (slot : Nat) (i : Inst), s.inst slot = some i →
    (∀ (h : Hdr) (f : SetForm) (c : Cond) (sp : PSpec) (p : Param) (d : Int) (div : Option Nat) (v : SetValue)
      (names : List ClampName),
      s.takes h 0x20 = true → TakesSet h i → f.cond = .is c → ActsNow i c → HasRoom i c f.param →
      paramSpec s.rate i.choice f.param = some sp → i.param f.param = some p → p.Settled →
      ((∃ x y : Int, (sp.form = .samples ∨ sp.form = .millis ∨ sp.form = .base) ∧ f.value = .free x ∧ div = none ∧
          y = (if x < sp.lo then sp.lo else if sp.hi < x then sp.hi else x) ∧ v = .free y ∧
          d = (match sp.form with
            | .samples => max 256 (y * 256)
            | .millis => max 256 (y * s.rate.pick 48 96 * 256)
            | _ => max 256 (hundredthsToDelay s.rate y.toNat : Int)) ∧
          names = if y = x then [] else [.value]) ∨
        (∃ code fpb : Nat, (sp.form = .samples ∨ sp.form = .millis) ∧ f.value = .division code ∧ code ≤ 13 ∧
          s.linkedFpb i = some fpb ∧ div = some code ∧
          d = (syncedDelay fpb code (largestDelay s.rate sp) : Int) ∧
          v = .division code (some (syncedDelay fpb code (largestDelay s.rate sp))) ∧
          names = if largestDelay s.rate sp < syncedRaw fpb code then [.value] else [])) →
      ∃ t j q all, exec (.set h slot f) s = .next t ∧ OnlySlot h s t slot ∧
        all = names ++ (if rampTaken sp f.ramp = f.ramp then [] else [.ramp]) ++ condNames c ∧
        t.Answered h 0x20 (if i.state ≠ .priming ∧ p.xfade ≠ none then .pending else doneOr all) none
          (.set v (some (rampTaken sp f.ramp)) all) ∧
        t.inst slot = some j ∧ OnlyParam i j f.param ∧ UpdatesLess i j f.param ∧ j.param f.param = some q ∧
        i.DelayChanges s.rate { p with division := div } q d (s.rate.ms (rampTaken sp f.ramp)) false) ∧
    (∀ (n : Nat) (p : Param) (x : Xfade), s.running = true → i.param n = some p → p.xfade = some x → x.len < x.pos →
      ∃ t j q, exec (.crossfadeEnd slot n) s = .next t ∧ SlotBecomes s t slot j ∧ OnlyParam i j n ∧
        j.updates = i.updates ∧ j.param n = some q ∧
        (p.waiting = none → q = { p with xfade := none, waiting := none }) ∧
        ∀ w, p.waiting = some w →
          i.DelayStarts s.rate { p with xfade := none, waiting := none } q w.target w.ramp) ∧
    (∀ (n : Nat) (p : Param), s.running = true → i.param n = some p → p.Settled →
      exec (.crossfadeEnd slot n) s = .next s)) ∧
  ∀ (r : Rate) (fpb : Nat) (i : Inst),
    (i.params.map Param.num).Nodup → (∀ p, p ∈ i.params → p.Settled) →
    { i.retarget r fpb with params := i.params } = i ∧
    ∀ (n : Nat) (p : Param), i.param n = some p → ∃ q, (i.retarget r fpb).param n = some q ∧
      (∀ code sp, p.division = some code → paramSpec r i.choice n = some sp →
        (sp.form = .samples ∨ sp.form = .millis ∨ sp.form = .base) →
        i.DelayChanges r p q (syncedDelay fpb code (largestDelay r sp) : Nat) (r.ms (i.value 1).toNat) true) ∧
      (p.division = none ∨ (∀ sp, paramSpec r i.choice n = some sp →
        sp.form ≠ .samples ∧ sp.form ≠ .millis ∧ sp.form ≠ .base) → q = p)

/-- RAMP_END (R76), RETURN_RAMP_END (R36), POISON_FALL_END and POISON_RISE_END (R46): once its last frame has run a
ramp is removed, the value at its target, a return ends, a fall is SILENT and a rise CLEAR; before that nothing
changes. -/
def Obligations.RampsReturnsAndEnvelopesEnd : Prop :=
  ∀ (s : State) (slot : Nat) (i : Inst), s.running = true → s.inst slot = some i →
    (∀ n p g, i.param n = some p → p.ramp = some g →
      (g.len < g.pos → ∃ t j, exec (.rampEnd slot (.param n)) s = .next t ∧ SlotBecomes s t slot j ∧ OnlyParam i j n ∧
        j.updates = i.updates ∧ j.param n = some { p with value := p.target, ramp := none }) ∧
      (g.pos ≤ g.len → (i.params.map Param.num).Nodup → exec (.rampEnd slot (.param n)) s = .next s)) ∧
    (∀ pos x g, i.sends[pos]? = some (some x) → x.ramp = some g → x.departing = false → g.len < g.pos →
      ∃ t, exec (.rampEnd slot (.send pos)) s = .next t ∧
        SlotBecomes s t slot { i with sends := i.sends.setIfInBounds pos (some { x with ramp := none }) }) ∧
    (∀ side pos x g, (i.routes side)[pos]? = some (some x) → x.ramp = some g → x.departing = false → g.len < g.pos →
      ∃ t, exec (.rampEnd slot (.route side pos)) s = .next t ∧
        SlotBecomes s t slot
          (i.setRoutes side ((i.routes side).setIfInBounds pos (some { x with ramp := none })))) ∧
    (s.rate.pick 480 960 < i.ret → ∃ t, exec (.returnRampEnd slot) s = .next t ∧ SlotBecomes s t slot { i with ret := 0 }) ∧
    (i.ret ≤ s.rate.pick 480 960 → exec (.returnRampEnd slot) s = .next s) ∧
    (i.env.phase = .fall → 64 ≤ i.env.step → ∃ t, exec (.poisonFallEnd slot) s = .next t ∧
      SlotBecomes s t slot { i with env := { i.env with phase := .silent, step := 0 } }) ∧
    (i.env.phase ≠ .fall ∨ i.env.step < 64 → exec (.poisonFallEnd slot) s = .next s) ∧
    (i.env.phase = .rise → 64 ≤ i.env.step → ∃ t, exec (.poisonRiseEnd slot) s = .next t ∧
      SlotBecomes s t slot { i with env := { i.env with phase := .clear, step := 0 } }) ∧
    (i.env.phase ≠ .rise ∨ i.env.step < 64 → exec (.poisonRiseEnd slot) s = .next s)

/-! ## Sends, routes and output channels -/

/-- SEND_SET and SEND_CLEAR (R161): a send set at an empty position is live from gain zero, one at a live send to the
same channel takes a new set gain; in RUNNING the gain in effect ramps to it, in PRIMING and HELD it waits. A cleared
live send departs over 480/960 frames, at once in PRIMING; SEND_DEPARTED empties it once its ramp has run. ROUTE_SET
and ROUTE_CLEAR (R164): a route to a channel the owner holds is set at an empty position or takes a new set gain, by a
ramp, at once in PRIMING; NOT_CLAIMED, BAD_STATE for a departing route or another channel, BAD_ARGUMENT for the channel
of the other route, in that order. A cleared live route departs, at once in PRIMING. ROUTE_DEPARTED (R163, R164): a
departing route whose ramp has run is emptied, and its channel is FREE where it was RELEASING and no route to it is
left. Each of the four is refused in the order of R5: a slot above 31, a position, a channel, a side or a gain out of
range is BAD_ARGUMENT, a FREE slot BAD_STATE, another port's NOT_OWNER, and a state in which it is not accepted,
WAITING, and for a send DRAINING and FADING too, BAD_STATE. (That a gain beyond 16 bits is a bad argument is log entry
40.) -/
def Obligations.SendsAndRoutesRampAndDepart : Prop :=
  (∀ (s : State) (slot pos : Nat) (i : Inst), s.inst slot = some i → pos ≤ 3 →
    (∀ (h : Hdr) (chan : Nat) (gain : Int) (ramp : Nat) (x : Path),
      s.takes h 0x21 = true → i.owner = h.port → (i.state = .priming ∨ i.state = .running ∨ i.state = .held) →
      chan < channelCount s.rate → -32768 ≤ gain → gain ≤ 32767 →
      ((i.sends[pos]? = some none ∧ x = { chan := chan, setGain := gain, gain := 0, ramp := none, departing := false }) ∨
        (∃ y, i.sends[pos]? = some (some y) ∧ y.departing = false ∧ y.chan = chan ∧ x = { y with setGain := gain }) →
        ∃ t z names, exec (.sendSet h slot pos chan gain ramp) s = .next t ∧ OnlySlot h s t slot ∧
          names = (if 10 ≤ ramp ∧ ramp ≤ 5000 then [] else [.ramp]) ∧
          t.Answered h 0x21 (doneOr names) none (.clamped names) ∧
          t.inst slot = some { i with sends := i.sends.setIfInBounds pos (some z) } ∧
          (i.state ≠ .running → z = x) ∧
          (i.state = .running → x.Ramps z gain (s.rate.ms (max 10 (min 5000 ramp))))) ∧
      ((∃ y, i.sends[pos]? = some (some y) ∧ (y.departing = true ∨ y.chan ≠ chan)) →
        Refuses (.sendSet h slot pos chan gain ramp) h 0x21 .badState s)) ∧
    (∀ (h : Hdr), s.takes h 0x22 = true → i.owner = h.port →
      (i.state = .priming ∨ i.state = .running ∨ i.state = .held) →
      ((i.sends[pos]? = some none ∨ ∃ y, i.sends[pos]? = some (some y) ∧ y.departing = true) →
        OnlyAnswers (.sendClear h slot pos) h 0x22 .done none .empty s) ∧
      (∀ y, i.sends[pos]? = some (some y) → y.departing = false →
        ∃ t v, exec (.sendClear h slot pos) s = .next t ∧ OnlySlot h s t slot ∧ t.Answered h 0x22 .done none .empty ∧
          t.inst slot = some { i with sends := i.sends.setIfInBounds pos v } ∧
          (i.state = .priming → v = none) ∧
          (i.state ≠ .priming → ∃ z, v = some z ∧ y.Departs z (s.rate.pick 480 960)))) ∧
    (∀ y g, s.running = true → i.sends[pos]? = some (some y) → y.ramp = some g →
      (y.departing = true → g.len < g.pos → ∃ t, exec (.sendDeparted slot pos) s = .next t ∧
        SlotBecomes s t slot { i with sends := i.sends.setIfInBounds pos none }) ∧
      (y.departing = false ∨ g.pos ≤ g.len → exec (.sendDeparted slot pos) s = .next s))) ∧
  (∀ (s : State) (h : Hdr) (slot pos : Nat) (side : Side) (i : Inst),
    s.inst slot = some i → i.owner = h.port → i.state ≠ .waiting → pos ≤ 1 →
    (∀ (chan : Nat) (gain : Int) (ramp : Nat), s.takes h 0x25 = true → chan < channelCount s.rate → -32768 ≤ gain → gain ≤ 32767 →
      (s.holds h.port chan = false →
        Refuses (.routeSet h slot (.is side) pos chan gain ramp) h 0x25 .notClaimed s) ∧
      (s.holds h.port chan = true →
        (∃ y, (i.routes side)[pos]? = some (some y) ∧ (y.departing = true ∨ y.chan ≠ chan)) →
        Refuses (.routeSet h slot (.is side) pos chan gain ramp) h 0x25 .badState s) ∧
      (∀ x, s.holds h.port chan = true →
        ((i.routes side)[pos]? = some none ∧
            x = { chan := chan, setGain := gain, gain := 0, ramp := none, departing := false }) ∨
          (∃ y, (i.routes side)[pos]? = some (some y) ∧ y.departing = false ∧ y.chan = chan ∧
            x = { y with setGain := gain }) →
        ((∃ y, (i.routes side)[1 - pos]? = some (some y) ∧ y.chan = chan) →
          Refuses (.routeSet h slot (.is side) pos chan gain ramp) h 0x25 .badArgument s) ∧
        ((∀ y, (i.routes side)[1 - pos]? = some (some y) → y.chan ≠ chan) →
          ∃ t z names, exec (.routeSet h slot (.is side) pos chan gain ramp) s = .next t ∧ OnlySlot h s t slot ∧
            names = (if 10 ≤ ramp ∧ ramp ≤ 5000 then [] else [.ramp]) ∧
            t.Answered h 0x25 (doneOr names) none (.clamped names) ∧
            t.inst slot = some (i.setRoutes side ((i.routes side).setIfInBounds pos (some z))) ∧
            (i.state = .priming → z = { x with gain := gain, ramp := none }) ∧
            (i.state ≠ .priming → x.Ramps z gain (s.rate.ms (max 10 (min 5000 ramp))))))) ∧
    (s.takes h 0x26 = true →
      (i.routes side)[pos]? = some none ∨ (∃ y, (i.routes side)[pos]? = some (some y) ∧ y.departing = true) →
      OnlyAnswers (.routeClear h slot (.is side) pos) h 0x26 .done none .empty s) ∧
    (∀ y, s.takes h 0x26 = true → (i.routes side)[pos]? = some (some y) → y.departing = false →
      ∃ t v, exec (.routeClear h slot (.is side) pos) s = .next t ∧ OnlySlot h s t slot ∧
        t.Answered h 0x26 .done none .empty ∧
        t.inst slot = some (i.setRoutes side ((i.routes side).setIfInBounds pos v)) ∧
        (i.state = .priming → v = none) ∧
        (i.state ≠ .priming → ∃ z, v = some z ∧ y.Departs z (s.rate.pick 480 960)))) ∧
  (∀ (s : State) (slot pos : Nat) (side : Side) (i : Inst) (y : Path) (g : GainRamp),
    s.running = true → s.inst slot = some i → (i.routes side)[pos]? = some (some y) → y.ramp = some g →
    (y.departing = true → g.len < g.pos →
      ∃ t, exec (.routeDeparted slot side pos) s = .next t ∧ OtherSlots s t slot ∧
        t.inst slot = some (i.setRoutes side ((i.routes side).setIfInBounds pos none)) ∧ OtherClaims s t y.chan ∧
        { t with insts := s.insts, lanes := s.lanes } = s ∧
        ∀ c, s.claim y.chan = some c → t.claim y.chan =
          some (if c.state = .releasing ∧ t.routesTo y.chan = [] then { c with state := .free, owner := none } else c)) ∧
    (y.departing = false ∨ g.pos ≤ g.len → exec (.routeDeparted slot side pos) s = .next s)) ∧
  ∀ (s : State) (h : Hdr) (slot pos chan : Nat) (gain : Int) (ramp : Nat) (side : Side) (far : Bool),
    far = decide (channelCount s.rate ≤ chan ∨ gain < -32768 ∨ 32767 < gain) →
    (∀ (c : Instr) (code : Byte) (bad : Bool) (late : List InstState), (c, code, bad, late) ∈
      ([(.sendSet h slot pos chan gain ramp, 0x21, decide (3 < pos) || far, [.waiting, .draining, .fading]),
        (.sendClear h slot pos, 0x22, decide (3 < pos), [.waiting, .draining, .fading]),
        (.routeSet h slot (.is side) pos chan gain ramp, 0x25, decide (1 < pos) || far, [.waiting]),
        (.routeClear h slot (.is side) pos, 0x26, decide (1 < pos), [.waiting])] :
        List (Instr × Byte × Bool × List InstState)) → s.takes h code = true →
      (31 < slot ∨ bad = true → Refuses c h code .badArgument s) ∧
      (slot ≤ 31 → bad = false → (s.inst slot = none → Refuses c h code .badState s) ∧
        ∀ i, s.inst slot = some i → (i.owner ≠ h.port → Refuses c h code .notOwner s) ∧
          (i.owner = h.port → i.state ∈ late → Refuses c h code .badState s))) ∧
    ∀ out : Sys2Proof.Field Side, out = .absent ∨ out = .unknown →
      (s.takes h 0x25 = true → Refuses (.routeSet h slot out pos chan gain ramp) h 0x25 .badArgument s) ∧
      (s.takes h 0x26 = true → Refuses (.routeClear h slot out pos) h 0x26 .badArgument s)

/-! ## Tempo clocks -/

/-- CLAIM_OUTPUT (R162): a FREE channel is CLAIMED by the port with its clip count 0; its own claim answers DONE again
and READ DONE always; another port's channel is CLAIMED and its own RELEASING one BAD_STATE; each reply carries the
channel report. RELEASE_OUTPUT (R163): every live route of the port's instances to the channel departs; the channel is
RELEASING, or FREE where no route to it stands. A port's own RELEASING channel answers DONE, any other channel is
NOT_CLAIMED, one above the last BAD_ARGUMENT. TEMPO_CLAIM and TEMPO_RELEASE (R93, R92, R104): an OPEN clock becomes the
port's and its owner's clock OPEN, with TEMPO notices; a clock of another port is LOCKED, a release of an OPEN one
BAD_STATE; each reply carries the clock report. TAP_LINE (R99): the footswitch moves to the clock named, unless that
clock or the one that holds the line is LOCKED for the port; the clock that holds it already answers DONE. (A clock
above 3 is refused with no clock report, log entry 42.) -/
def Obligations.ChannelsAndClocksAreClaimedAndReleased : Prop :=
  ((∀ (s : State) (h : Hdr) (chan : Nat), s.takes h 0x23 = true →
    (channelCount s.rate ≤ chan → ∀ mode, Refuses (.claimOutput h chan mode) h 0x23 .badArgument s) ∧
    ∀ c, s.claim chan = some c →
      OnlyAnswers (.claimOutput h chan (.is .read)) h 0x23 .done none (.channel (s.channelReport chan c)) s ∧
      (c.state = .free → ∃ t, exec (.claimOutput h chan (.is .claim)) s = .next t ∧ PortsKept h s t ∧
        { t with ports := s.ports, lanes := s.lanes } = s ∧ OtherClaims s t chan ∧
        t.claim chan = some { state := .claimed, owner := some h.port, clips := 0 } ∧
        t.Answered h 0x23 .done none
          (.channel (t.channelReport chan { state := .claimed, owner := some h.port, clips := 0 }))) ∧
      (c.state = .claimed → c.owner = some h.port →
        OnlyAnswers (.claimOutput h chan (.is .claim)) h 0x23 .done none (.channel (s.channelReport chan c)) s) ∧
      (c.state = .releasing → c.owner = some h.port →
        OnlyAnswers (.claimOutput h chan (.is .claim)) h 0x23 .refused (some .badState)
          (.channel (s.channelReport chan c)) s) ∧
      (c.state ≠ .free → c.owner ≠ some h.port →
        OnlyAnswers (.claimOutput h chan (.is .claim)) h 0x23 .refused (some .claimed)
          (.channel (s.channelReport chan c)) s)) ∧
  (∀ (s : State) (h : Hdr) (chan : Nat), s.takes h 0x24 = true → channelCount s.rate ≤ chan →
    Refuses (.releaseOutput h chan) h 0x24 .badArgument s) ∧
  ∀ (s : State) (h : Hdr) (chan : Nat) (c : Claim), s.takes h 0x24 = true → s.claim chan = some c →
    (c.state = .claimed → c.owner = some h.port →
      ∃ t d, exec (.releaseOutput h chan) s = .next t ∧ PortsKept h s t ∧ OtherClaims s t chan ∧
        { t with ports := s.ports, lanes := s.lanes, insts := s.insts } = s ∧
        t.claim chan = some d ∧
        d = (if t.routesTo chan = [] then { c with state := .free, owner := none } else { c with state := .releasing }) ∧
        t.Answered h 0x24 .done none (.channel (t.channelReport chan d)) ∧
        (∀ k, s.inst k = none → t.inst k = none) ∧
        ∀ k i, s.inst k = some i → ∃ j, t.inst k = some j ∧ { j with left := i.left, right := i.right } = i ∧
          (i.owner ≠ h.port → j = i) ∧
          (i.owner = h.port →
            RoutesDepart (s.rate.pick 480 960) (fun x => decide (x.chan = chan)) i.left j.left ∧
            RoutesDepart (s.rate.pick 480 960) (fun x => decide (x.chan = chan)) i.right j.right)) ∧
    (c.state = .releasing → c.owner = some h.port →
      OnlyAnswers (.releaseOutput h chan) h 0x24 .done none (.channel (s.channelReport chan c)) s) ∧
    (c.state = .free ∨ c.owner ≠ some h.port → Refuses (.releaseOutput h chan) h 0x24 .notClaimed s)) ∧
  ((∀ (s : State) (h : Hdr) (k : Nat),
    (3 < k → (s.takes h 0x30 = true → Refuses (.tempoClaim h k) h 0x30 .badArgument s) ∧
      (s.takes h 0x31 = true → Refuses (.tempoRelease h k) h 0x31 .badArgument s)) ∧
    ∀ c, s.clock k = some c →
      (s.takes h 0x30 = true → c.owner = none → ∃ t, exec (.tempoClaim h k) s = .next t ∧ PortsKept h s t ∧
        OtherClocks s t k ∧ t.clock k = some { c with owner := some h.port } ∧
        { t with ports := s.ports, clocks := s.clocks, notices := s.notices } = s ∧
        TempoTold s t k c .claimed (.port h.port) ∧
        t.Answered h 0x30 .done none (.clock (t.clockReport k { c with owner := some h.port }) [])) ∧
      (c.owner = some h.port →
        (s.takes h 0x30 = true →
          OnlyAnswers (.tempoClaim h k) h 0x30 .done none (.clock (s.clockReport k c) []) s) ∧
        (s.takes h 0x31 = true → ∃ t, exec (.tempoRelease h k) s = .next t ∧ PortsKept h s t ∧ OtherClocks s t k ∧
          t.clock k = some { c with owner := none } ∧
          { t with ports := s.ports, clocks := s.clocks, notices := s.notices } = s ∧
          TempoTold s t k c .released (.port h.port) ∧
          t.Answered h 0x31 .done none (.clock (t.clockReport k { c with owner := none }) []))) ∧
      (s.takes h 0x31 = true → c.owner = none →
        OnlyAnswers (.tempoRelease h k) h 0x31 .refused (some .badState) (.clock (s.clockReport k c) []) s) ∧
      (∀ q, c.owner = some q → q ≠ h.port →
        (s.takes h 0x30 = true →
          OnlyAnswers (.tempoClaim h k) h 0x30 .refused (some .locked) (.clock (s.clockReport k c) []) s) ∧
        (s.takes h 0x31 = true →
          OnlyAnswers (.tempoRelease h k) h 0x31 .refused (some .locked) (.clock (s.clockReport k c) []) s))) ∧
  ∀ (s : State) (h : Hdr) (k j : Nat) (c d : Clock), s.takes h 0x35 = true → s.clock k = some c → s.clock j = some d →
    (∀ n e, s.clock n = some e → (e.tapLine = true ↔ n = j)) →
    (c.owner = none ∨ c.owner = some h.port →
      (d.owner = none ∨ d.owner = some h.port →
        (k = j → OnlyAnswers (.tapLine h k) h 0x35 .done none (.clock (s.clockReport k c) []) s) ∧
        (k ≠ j → ∃ t, exec (.tapLine h k) s = .next t ∧ PortsKept h s t ∧
          { t with ports := s.ports, clocks := s.clocks } = s ∧
          t.clock k = some { c with tapLine := true } ∧ t.clock j = some { d with tapLine := false } ∧
          (∀ n, n ≠ k → n ≠ j → t.clock n = s.clock n) ∧
          t.Answered h 0x35 .done none (.clock (t.clockReport k { c with tapLine := true }) []))) ∧
      (∀ q, d.owner = some q → q ≠ h.port →
        OnlyAnswers (.tapLine h k) h 0x35 .refused (some .locked) (.clock (s.clockReport k c) []) s)) ∧
    (∀ q, c.owner = some q → q ≠ h.port →
      OnlyAnswers (.tapLine h k) h 0x35 .refused (some .locked) (.clock (s.clockReport k c) []) s))

/-- The events of a tap reach the records ARMED on its clock: none where it is IGNORED and in a frame that carries a beat
event already, a bar event where the beat is 1 (R97, R101). -/
def TapReaches (u v : State) (k : Nat) (c : Clock) (what : TapOutcome) : Prop :=
  (what = .ignored ∨ c.beatNow = true → v = u) ∧
  (what ≠ .ignored → c.beatNow = false → ∀ e, u.clock k = some e → RecordsReached u v k true (decide (e.beat = 1)))

/-- TEMPO_SET (R94, R90, R88, R104): with no tempo it reads; a tempo, held to 4,000 to 30,000, gives the nearest FPB,
carries the beat phase over in proportion, removes the tap intervals, retargets the linked instances and raises TEMPO
notices; the tempo that stands changes nothing (log entry 31). METER (R95, R96, R104): the beats per bar held to 1 to
16, beat 1 and phase 0, and the present frame carries one beat event and a bar event, with the linked instances'
pending updates and TEMPO notices, which follow the links as they stand once the events have been delivered, the
updates and then the records (this order of the notices is the model's choice, log entry 49, that of updates and
records log entry 72). (What of the two events is still delivered in a frame whose beat was delivered before is log
entry 39.) TAP and TAP_LINE_EDGE (R98, R100, R101): each is a tap on its clock, the edge on the one that holds the TAP
line whoever owns it, with the band of the frames since the last tap, its tempo that of R100: 288,000,000 or
576,000,000 times the count of intervals by their sum, rounded to nearest with halves up; LAST_TAP_LAPSE forgets a tap
once the frame in which its band ends has run (log entry 16). (That a tap retargets before its events are delivered is
log entry 57.) The events of a METER and of a tap reach the records ARMED on the clock as those of BEAT_EVENT do (R97,
R147; several ports by log entry 52). A METER or a tap that moves the position backward marks a wrap on the synced
oscillators of the linked instances (R41, R101, log entry 65). -/
def Obligations.TempoMeterAndTapsMoveAClock : Prop :=
  (∀ (r : Rate) (series : List Nat) (tempo : Nat),
    (0 < series.sum → Nearest (tempoOf r series) (r.pick 288000000 576000000 * series.length) series.sum) ∧
    (0 < tempo → Nearest (fpbOf r tempo) (r.pick 48000 96000 * 1536000) tempo)) ∧
  (∀ (s : State) (h : Hdr) (k : Nat) (c : Clock), s.takes h 0x32 = true → s.clock k = some c →
    OnlyAnswers (.tempoSet h k none) h 0x32 .done none (.clock (s.clockReport k c) []) s ∧
    ∀ (x tempo : Nat), tempo = max 4000 (min 30000 x) →
      (c.owner = none ∨ c.owner = some h.port →
        (tempo = c.tempo →
          OnlyAnswers (.tempoSet h k (some x)) h 0x32 .done none (.clock (s.clockReport k c) []) s) ∧
        (tempo ≠ c.tempo → ∃ t d names, exec (.tempoSet h k (some x)) s = .next t ∧ PortsKept h s t ∧
          OtherClocks s t k ∧ t.clock k = some d ∧
          { t with ports := s.ports, clocks := s.clocks, insts := s.insts, notices := s.notices } = s ∧
          d = { c with tempo := tempo, fpb := d.fpb, phase := c.phase * d.fpb / c.fpb, series := [] } ∧
          2 * tempo * d.fpb ≤ 2 * (s.rate.pick 48000 96000 * 1536000) + tempo ∧
          2 * (s.rate.pick 48000 96000 * 1536000) + tempo < 2 * tempo * (d.fpb + 1) ∧
          (∀ slot, t.inst slot = (s.inst slot).map fun i => if i.link = some k then i.retarget s.rate d.fpb else i) ∧
          TempoTold s t k d .tempo (.port h.port) ∧ names = (if tempo = x then [] else [.tempo]) ∧
          t.Answered h 0x32 (doneOr names) none (.clock (t.clockReport k d) names))) ∧
      (∀ q, c.owner = some q → q ≠ h.port →
        OnlyAnswers (.tempoSet h k (some x)) h 0x32 .refused (some .locked) (.clock (s.clockReport k c) []) s)) ∧
  (∀ (s : State) (h : Hdr) (k beats : Nat) (c : Clock), s.takes h 0x34 = true → s.clock k = some c →
    (c.owner = none ∨ c.owner = some h.port →
      ∃ t u v d e names, exec (.meter h k beats) s = .next t ∧ PortsKept h s t ∧ PortsKept h s u ∧ OtherClocks s u k ∧
        { u with ports := s.ports, clocks := s.clocks, insts := s.insts } = s ∧ u.clock k = some e ∧
        e = { c with beats := max 1 (min 16 beats), beat := 1, phase := 0, beatNow := true, barNow := true,
                     beatOwed := false, barOwed := false } ∧
        BeatReached s u k c.fpb (!c.beatNow || c.beatOwed) (!c.barNow || c.barOwed) (SeesMove c e) ∧
        RecordsReached u v k (!c.beatNow || c.beatOwed) (!c.barNow || c.barOwed) ∧ v.clock k = some d ∧
        TempoTold v t k d .meter (.port h.port) ∧ { t with ports := v.ports, notices := v.notices } = v ∧
        names = (if e.beats = beats then [] else [.beats]) ∧
        t.Answered h 0x34 (doneOr names) none (.clock (t.clockReport k d) names)) ∧
    (∀ q, c.owner = some q → q ≠ h.port →
      OnlyAnswers (.meter h k beats) h 0x34 .refused (some .locked) (.clock (s.clockReport k c) []) s)) ∧
  ∀ (s : State) (k : Nat) (c : Clock), s.clock k = some c →
    (∀ (h : Hdr) (what : TapOutcome), s.takes h 0x33 = true → TapIs s c what →
      (c.owner = none ∨ c.owner = some h.port → ∃ t u v d, exec (.tap h k) s = .next t ∧ PortsKept h s t ∧
        PortsKept h s u ∧ OtherClocks s u k ∧ TapEffect s u k c (.port h.port) what ∧
        { u with ports := s.ports, clocks := s.clocks, insts := s.insts, notices := s.notices } = s ∧
        TapReaches u v k c what ∧ { t with ports := v.ports } = v ∧ t.clock k = some d ∧
        t.Answered h 0x33 .done none (.tapped what (t.clockReport k d))) ∧
      (∀ q, c.owner = some q → q ≠ h.port →
        OnlyAnswers (.tap h k) h 0x33 .refused (some .locked) (.clock (s.clockReport k c) []) s)) ∧
    (∀ (what : TapOutcome), s.running = true → TapIs s c what →
      (∀ n e, s.clock n = some e → (e.tapLine = true ↔ n = k)) →
      ∃ t u, exec .tapLineEdge s = .next t ∧ OtherClocks s u k ∧ TapEffect s u k c .tapLine what ∧
        { u with clocks := s.clocks, insts := s.insts, notices := s.notices } = s ∧ TapReaches u t k c what) ∧
    (∀ f, s.running = true → c.lastTap = some f →
      (s.rate.pick 72000 144000 + 1 < s.since f → ∃ t, exec (.lastTapLapse k) s = .next t ∧ OtherClocks s t k ∧
        { t with clocks := s.clocks } = s ∧ t.clock k = some { c with lastTap := none }) ∧
      (s.since f ≤ s.rate.pick 72000 144000 + 1 → exec (.lastTapLapse k) s = .next s))

/-- LINK_TEMPO (R102, R103, R81, R89): a link made or moved counts at the owner's port, and retargets the synced time
parameters to the clock, as DelayTimesMoveAndRetarget says of it; the link held answers DONE; a link removed takes the
count back, the delays in effect of the synced time parameters stay where they stand (log entry 47), and the BEAT and
BAR updates take effect, as BeatsAndWrapsTakeUpdates says of them, with no clock for a division (log entry 46). NONE
without a link answers no report (log entry 50). Its refusals, in the order of R5: a slot above 31 or a clock above 3
is BAD_ARGUMENT, a FREE slot BAD_STATE, a port that is not the owner NOT_OWNER, shared or not, an instance in WAITING,
DRAINING or FADING BAD_STATE, each with the report of the clock named (log entry 42). -/
def Obligations.LinkTempoCountsAndRetargets : Prop :=
  (∀ (r : Rate) (i : Inst), (i.params.map Param.num).Nodup → (∀ p, p ∈ i.params → p.Settled) →
    { i.standSynced r with params := i.params } = i ∧
    ∀ (n : Nat) (p : Param), i.param n = some p → ∃ q, (i.standSynced r).param n = some q ∧
      (∀ code sp, p.division = some code → paramSpec r i.choice n = some sp →
        (sp.form = .samples ∨ sp.form = .millis ∨ sp.form = .base) → p.Stands q) ∧
      (p.division = none ∨ (∀ sp, paramSpec r i.choice n = some sp →
        sp.form ≠ .samples ∧ sp.form ≠ .millis ∧ sp.form ≠ .base) → q = p)) ∧
  (∀ (s : State) (h : Hdr) (slot : Nat) (i : Inst),
    s.takes h 0x36 = true → s.inst slot = some i → i.owner = h.port →
    (i.state = .priming ∨ i.state = .running ∨ i.state = .held) →
    (∀ k c, s.clock k = some c → i.link ≠ some k →
      ∃ t d, exec (.linkTempo h slot (some k)) s = .next t ∧ PortsKept h s t ∧ OtherSlots s t slot ∧
        { t with ports := s.ports, clocks := s.clocks, insts := s.insts } = s ∧
        t.inst slot = some (Inst.retarget s.rate c.fpb { i with link := some k }) ∧
        d = { c with linked := c.linked.set h.port (c.linked.get h.port + 1) } ∧ t.clock k = some d ∧
        (∀ n e, n ≠ k → s.clock n = some e → t.clock n =
          some (if i.link = some n then { e with linked := e.linked.set h.port (e.linked.get h.port - 1) } else e)) ∧
        t.Answered h 0x36 .done none (.clock (t.clockReport k d) [])) ∧
    (∀ k c, s.clock k = some c → i.link = some k →
      OnlyAnswers (.linkTempo h slot (some k)) h 0x36 .done none (.clock (s.clockReport k c) []) s ∧
      ∃ t d, exec (.linkTempo h slot none) s = .next t ∧ PortsKept h s t ∧ OtherSlots s t slot ∧ OtherClocks s t k ∧
        { t with ports := s.ports, clocks := s.clocks, insts := s.insts } = s ∧
        t.inst slot = some (Inst.applyUpdates s.rate none { i.standSynced s.rate with link := none } [.beat, .bar]) ∧
        d = { c with linked := c.linked.set h.port (c.linked.get h.port - 1) } ∧ t.clock k = some d ∧
        t.Answered h 0x36 .done none (.clock (t.clockReport k d) [])) ∧
    (i.link = none → OnlyAnswers (.linkTempo h slot none) h 0x36 .done none .empty s)) ∧
  ∀ (s : State) (h : Hdr) (slot : Nat) (goal : Option Nat) (why : Reason), s.takes h 0x36 = true →
    (((31 < slot ∨ ∃ k, goal = some k ∧ 3 < k) ∧ why = .badArgument) ∨
      (slot ≤ 31 ∧ (∀ k, goal = some k → k ≤ 3) ∧
        ((s.inst slot = none ∧ why = .badState) ∨ ∃ i, s.inst slot = some i ∧
          ((i.owner ≠ h.port ∧ why = .notOwner) ∨
            (i.owner = h.port ∧ (i.state = .waiting ∨ i.state = .draining ∨ i.state = .fading) ∧ why = .badState))))) →
    OnlyAnswers (.linkTempo h slot goal) h 0x36 .refused (some why)
      (match goal.bind fun k => (s.clock k).map fun c => (k, c) with
        | some x => .clock (s.clockReport x.1 x.2) []
        | none => .empty) s

/-- BEAT_EVENT (R96, R97, R80, R147): the event the frame carries is delivered once: the linked instances' BEAT
updates, with a bar event the BAR updates too, take effect, then the records ARMED on the clock and condition are
applied (this order is log entry 72), those of several ports in the order A, B, C (log entry 52), as
RecallPassesReleaseSetAndForce says of one. LFO_WRAP (R40, R41, R80): once the first oscillator of an instance that
runs has wrapped, its LFO_ZERO updates take effect. (Of a free oscillator it is the wrap at the end of the frame
before, log entries 43 and 44.) A wrap is taken once: the free one of an addition, and the one of a formed phase that
is less than that of the frame before, or whose clock a tap or a METER has moved backward in the frame, one in a frame
however the position moves in it. A pending update that takes effect leaves the list and acts on its parameter as the
SET with the condition NOW does, in list order, and on nothing else (R80, R77, R85 to R87, R83, R84). (When a position
counts as moved backward is log entry 65; a division without a link is log entry 20.) -/
def Obligations.BeatsAndWrapsTakeUpdates : Prop :=
  ∀ (s : State), s.running = true →
    (∀ k c, s.clock k = some c → c.beatOwed = true →
      ∃ t u, exec (.beatEvent k) s = .next t ∧ OtherClocks s u k ∧
        u.clock k = some { c with beatOwed := false, barOwed := false } ∧
        { u with clocks := s.clocks, insts := s.insts } = s ∧ BeatReached s u k c.fpb true c.barOwed id ∧
        RecordsReached u t k true c.barOwed) ∧
    (∀ k c p r, s.clock k = some c → c.beatOwed = true → (s.rc p).record = some r → r.state = .armed →
      r.clock = some k → (r.cond = .beat ∨ (r.cond = .bar ∧ c.barOwed = true)) →
      ∃ t u, exec (.beatEvent k) s = .next t ∧ (t.rc p).record = some u ∧ u.number = r.number ∧
        u.applyFrame = some s.frame ∧ u.state ≠ .armed) ∧
    (∀ k c, s.clock k = some c → c.beatOwed = false → exec (.beatEvent k) s = .next s) ∧
    (∀ slot i, s.inst slot = some i → i.state ∈ [.running, .held, .draining, .fading] →
      (lfoWrapped (s.linkedClock i) i = true → ∃ t j, exec (.lfoWrap slot) s = .next t ∧ SlotBecomes s t slot j ∧
        j = (clearWrap (s.linkedClock i) i).applyUpdates s.rate (s.linkedFpb i) [.lfoZero] ∧
        j.updates = i.updates.filter (fun u => decide (u.cond ≠ .lfoZero))) ∧
      (lfoWrapped (s.linkedClock i) i = false → exec (.lfoWrap slot) s = .next s)) ∧
    (∀ (clock : Option Clock) (i : Inst),
      (∀ o rest, i.oscs = o :: rest → (lfoWrapped clock i = true ↔ o.wrapped = true ∨
        (o.acted = false ∧ ∃ code c, lfoDivision i = some code ∧ clock = some c ∧ (o.moved = true ∨
          (syncedPhase c.fpb c.phase c.beat (divisionBeats code).1 (divisionBeats code).2).toNat < o.last.toNat)))) ∧
      { i.turnBack with oscs := i.oscs } = i ∧
      (i.state ∈ [.running, .held, .draining, .fading] → lfoDivision i ≠ none →
        i.turnBack.oscs = i.oscs.map fun o => { o with moved := true }) ∧
      (i.state ∉ [.running, .held, .draining, .fading] ∨ lfoDivision i = none → i.turnBack = i) ∧
      lfoWrapped clock (clearWrap clock i) = false ∧ { clearWrap clock i with oscs := i.oscs } = i ∧
      (clearWrap clock i).oscs.map (fun o => (o.phase, o.last)) = i.oscs.map fun o => (o.phase, o.last)) ∧
    (∀ (r : Rate) (fpb : Option Nat) (i : Inst) (conds : List Cond),
      (i.params.map Param.num).Nodup → (∀ p, p ∈ i.params → p.Settled) → i.dip.pos ≤ r.pick 240 480 →
      i.UpdatesTaken r fpb (i.applyUpdates r fpb conds) conds) ∧
    (∀ slot i, s.inst slot = some i → i.state = .priming ∨ i.state = .waiting → exec (.lfoWrap slot) s = .next s)

/-! ## Recalls -/

/-- RECALL_BEGIN (R142) opens a staging area in place of one that stood, RECALL_ITEM (R143) adds an item of right form
to an open one that holds fewer than 32, RECALL_ABANDON (R144) closes it, RECALL_RESULT (R155) reads the record and
changes nothing; their refusals, and what the right form of each item is. (That a transition number above 65,535, a
tempo link above 3, a gain beyond 16 bits and a drain limit in a REPLACE item are BAD_ARGUMENT is log entry 40; the
order closed, full, form is log entry 30.) -/
def Obligations.StagingCollectsItems : Prop :=
  ∀ (s : State) (h : Hdr),
    (∀ number cond clock ramp c k, s.takes h 0x40 = true → number ≤ 65535 → cond = Field.is c →
      ((c = .now ∧ k = none) ∨ ((c = .beat ∨ c = .bar) ∧ ∃ n, n ≤ 3 ∧ clock = some n ∧ k = some n)) →
      ∃ t names, exec (.recallBegin h number cond clock ramp) s = .next t ∧ PortsKept h s t ∧ OtherRecalls h s t ∧
        names = (if ramp ≤ 5000 then [] else [.defaultRamp]) ∧ t.Answered h 0x40 (doneOr names) none (.clamped names) ∧
        t.rc h.port = { s.rc h.port with staging := some (Staging.mk number c k (min 5000 ramp) []) }) ∧
    (∀ number cond clock ramp, s.takes h 0x40 = true → (65535 < number ∨ cond = .absent ∨ cond = .unknown ∨ cond = .is .lfoZero ∨
        ((cond = .is .beat ∨ cond = .is .bar) ∧ (clock = none ∨ ∃ n, clock = some n ∧ 3 < n))) →
      Refuses (.recallBegin h number cond clock ramp) h 0x40 .badArgument s) ∧
    (∀ item, s.takes h 0x41 = true → (s.rc h.port).staging = none → Refuses (.recallItem h item) h 0x41 .badState s) ∧
    (∀ item x, s.takes h 0x41 = true → (s.rc h.port).staging = some x →
      (32 ≤ x.items.length → Refuses (.recallItem h item) h 0x41 .stagingFull s) ∧
      (x.items.length < 32 → itemFormOk item = false → Refuses (.recallItem h item) h 0x41 .badArgument s) ∧
      (x.items.length < 32 → itemFormOk item = true →
        ∃ t, exec (.recallItem h item) s = .next t ∧ PortsKept h s t ∧ OtherRecalls h s t ∧
          t.Answered h 0x41 .done none (.itemIndex x.items.length) ∧
          t.rc h.port = { s.rc h.port with staging := some { x with items := x.items ++ [item] } })) ∧
    (∀ item, itemFormOk item = true ↔
      (∃ slot pairs own, item = .setParams slot pairs own ∧ slot ≤ 31 ∧ 1 ≤ pairs.length ∧ pairs.length ≤ 16) ∨
      (∃ slot form link params sends left right, item = .create slot form link params sends left right ∧ slot ≤ 31 ∧
        (∀ k, link = some k → k ≤ 3) ∧ params.length ≤ 32 ∧ sends.length ≤ 4 ∧ left.length ≤ 2 ∧ right.length ≤ 2 ∧
        ∀ x, x ∈ sends ++ left ++ right → -32768 ≤ x.gain ∧ x.gain ≤ 32767) ∨
      (∃ old new form params mode, item = .replace old new form params (.is mode) ∧ old ≤ 31 ∧ new ≤ 31 ∧
        form.drain = none ∧ params.length ≤ 32) ∨
      ∃ slot mode, item = .release slot (.is mode) ∧ slot ≤ 31) ∧
    (s.takes h 0x43 = true → ∃ t, exec (.recallAbandon h) s = .next t ∧ PortsKept h s t ∧ OtherRecalls h s t ∧
      t.Answered h 0x43 .done none .empty ∧ t.rc h.port = { s.rc h.port with staging := none }) ∧
    (s.takes h 0x44 = true → (s.rc h.port).record = none → OnlyAnswers (.recallResult h) h 0x44 .nothing none .empty s) ∧
    (∀ r, s.takes h 0x44 = true → (s.rc h.port).record = some r →
      ∃ x : RecallReport, OnlyAnswers (.recallResult h) h 0x44 .done none (.recall x) s ∧
      x.number = r.number ∧ x.state = r.state ∧ x.cond = r.cond ∧ x.clock = r.clock ∧ x.ramp = r.ramp ∧
      x.applyFrame = r.applyFrame ∧ x.shortPages = r.shortPages ∧ x.shortUnits = r.shortUnits ∧
      x.coverPages = r.coverPages ∧ x.coverUnits = r.coverUnits ∧ x.forced = r.forced ∧
      x.items.length = r.items.length ∧
      ∀ (n : Nat) (y : RecordItem), r.items[n]? = some y → ∃ z : ItemReport, x.items[n]? = some z ∧ z.item = y.item ∧ z.result = y.result ∧
        (y.result ≠ none → z.waiting = none) ∧
        (∀ k i f, y.result = none → itemNewSlot y.item = some k → s.inst k = some i → r.applyFrame = some f →
          z.waiting = if i.state = .waiting then some (s.rate.pick 480000 960000 - s.since f) else none))

/-- The slot `k` stands in at most one of the items `all` (R145 step 1). -/
def NamedOnce (all : List RecallItem) (k : Nat) : Prop := (all.filter fun x => decide (k ∈ itemSlots x)).length ≤ 1

/-- Every pair names a parameter of the kind of the choice `c` in a form the parameter takes (R145 step 3). -/
def PairsFit (r : Rate) (c : Choice) (pairs : List (Nat × ValueForm)) : Prop :=
  ∀ n v, (n, v) ∈ pairs → valueFormOk n v = true ∧ ∃ sp, paramSpec r c n = some sp ∧ acceptValue r sp none v ≠ none

/-- A new kind that passes step 3 of R145 with its parameter values. -/
def NewKindFits (s : State) (form : CreateForm) (params : List (Nat × ValueForm)) : Prop :=
  FormFits form ∧ PairsFit s.rate (choiceOf s.rate form).1 params

/-- What steps 4 and 5 of R145 say of an existing slot. -/
def OldSlotGives (s : State) (p : Port) (k : Nat) (why : Option Reason) : Prop :=
  (s.inst k = none ∧ why = some .badState) ∨
  ∃ i, s.inst k = some i ∧
    ((i.owner ≠ p ∧ why = some .notOwner) ∨
     (i.owner = p ∧ (i.state = .waiting ∨ i.state = .draining ∨ i.state = .fading ∨ i.offer ≠ none) ∧
       why = some .badState) ∨
     (i.owner = p ∧ (i.state = .priming ∨ i.state = .running ∨ i.state = .held) ∧ i.offer = none ∧ why = none))

/-- RECALL_COMMIT (R145, R146, R153): closed, BAD_STATE. The items are judged by the five steps of R145: a slot of two
items or a new slot that is not FREE, a kind, value or channel that does not fit, and an old slot that is FREE, of
another port, WAITING, DRAINING, FADING or under an offer. The first item that fails validation closes the staging area
and answers with its reason and index. A recall on BEAT or BAR makes an ARMED record with no result, tags the instances
it names, and supersedes a record that is ARMED or SETTLING with a TRANSITION notice, its WAITING members FREE. (A
value of wrong form fails the commit at the check of the parameters by log entry 30, the forms are log entries 14 and
45; that each of two items that name one slot fails is log entry 24. A missing mirror choice of a new kind is taken as
no, R47; one that is neither yes nor no is taken by RECALL_ITEM and fails the commit by log entry 30.) -/
def Obligations.CommitArmsARecord : Prop :=
  ∀ (s : State) (h : Hdr), s.takes h 0x42 = true →
    (∀ (all : List RecallItem) (item : RecallItem) (k : Nat), k ∈ itemSlots item →
      ¬ NamedOnce all k ∨ (itemNewSlot item = some k ∧ s.inst k ≠ none) →
      s.itemFault h.port all item = some .badArgument) ∧
    (∀ (all : List RecallItem) (k : Nat) (mode : Sys2Proof.Field RelMode) (why : Option Reason),
      NamedOnce all k → OldSlotGives s h.port k why →
      itemSlots (.release k mode) = [k] ∧ s.itemFault h.port all (.release k mode) = why) ∧
    (∀ (all : List RecallItem) (k : Nat) (pairs : List (Nat × ValueForm)) (ramp : Option Nat) (why : Option Reason),
      NamedOnce all k →
      ((∀ i, s.inst k = some i → PairsFit s.rate i.choice pairs) → (∀ x, x ∈ pairs → valueFormOk x.1 x.2 = true) →
        OldSlotGives s h.port k why → s.itemFault h.port all (.setParams k pairs ramp) = why) ∧
      (∀ i, s.inst k = some i → ¬ PairsFit s.rate i.choice pairs →
        s.itemFault h.port all (.setParams k pairs ramp) = some .badArgument)) ∧
    (∀ (all : List RecallItem) (k : Nat) (form : CreateForm) (link : Option Nat) (params : List (Nat × ValueForm))
        (sends left right : List PathForm), NamedOnce all k → s.inst k = none →
      ((s.itemFault h.port all (.create k form link params sends left right) = none ∧ NewKindFits s form params ∧
          ∀ x, x ∈ sends ++ left ++ right → x.chan < channelCount s.rate) ∨
       (s.itemFault h.port all (.create k form link params sends left right) = some .badArgument ∧
          ¬ (NewKindFits s form params ∧ ∀ x, x ∈ sends ++ left ++ right → x.chan < channelCount s.rate)))) ∧
    (∀ (all : List RecallItem) (old new : Nat) (form : CreateForm) (params : List (Nat × ValueForm))
        (policy : Sys2Proof.Field RelMode) (why : Option Reason), NamedOnce all old → NamedOnce all new → s.inst new = none →
      (NewKindFits s form params → OldSlotGives s h.port old why →
        s.itemFault h.port all (.replace old new form params policy) = why) ∧
      (¬ NewKindFits s form params → s.itemFault h.port all (.replace old new form params policy) = some .badArgument)) ∧
    ((s.rc h.port).staging = none → Refuses (.recallCommit h) h 0x42 .badState s) ∧
    ∀ x, (s.rc h.port).staging = some x →
      (∀ n item why, x.items[n]? = some item → s.itemFault h.port x.items item = some why →
        (∀ m it, m < n → x.items[m]? = some it → s.itemFault h.port x.items it = none) →
        ∃ t, exec (.recallCommit h) s = .next t ∧ PortsKept h s t ∧ OtherRecalls h s t ∧
          t.Answered h 0x42 .refused (some why) (.failedItem n) ∧
          t.rc h.port = { s.rc h.port with staging := none }) ∧
      ((∀ item, item ∈ x.items → s.itemFault h.port x.items item = none) → x.cond ≠ .now →
        ∃ t, exec (.recallCommit h) s = .next t ∧ PortsKept h s t ∧ (∀ q, q ≠ h.port → t.rc q = s.rc q) ∧
          t.rc h.port =
            { staging := none,
              record := some
                { number := x.number, state := .armed, cond := x.cond, clock := x.clock, ramp := x.ramp,
                  applyFrame := none, items := x.items.map (fun i => { item := i, result := none }), shortPages := 0,
                  shortUnits := 0, coverPages := 0, coverUnits := 0, forced := [] } } ∧
          { t with ports := s.ports, insts := s.insts, alloc := s.alloc, recalls := s.recalls,
                   notices := s.notices } = s ∧
          OtherNotices s t h.port ∧
          (∀ k i, s.inst k = some i → (∃ item, item ∈ x.items ∧ itemOldSlot item = some k) →
            t.inst k = some { i with tag := some x.number }) ∧
          ((∀ r, (s.rc h.port).record = some r → r.state ≠ .armed ∧ r.state ≠ .settling) →
            t.Answered h 0x42 .done none (.committed x.number .armed none (x.items.map fun _ => none) none) ∧
            t.notices = s.notices ∧
            ∀ k, (∀ item, item ∈ x.items → itemOldSlot item ≠ some k) → t.inst k = s.inst k) ∧
          (∀ r, (s.rc h.port).record = some r → r.state = .armed ∨ r.state = .settling →
            t.Answered h 0x42 .done none
              (.committed x.number .armed none (x.items.map fun _ => none) (some r.number)) ∧
            (∃ counts, t.np h.port = (s.np h.port).raise .transition
                { detail := .transition r.number .superseded counts, frame := s.frame } ∧
              (r.state = .armed → counts = { ok := 0, clamped := 0, failedNoPages := 0, failedNoUnits := 0,
                                             cancelled := r.items.length })) ∧
            (∀ k i, s.inst k = some i → i.owner = h.port → i.tag = some r.number → i.state = .waiting →
              t.inst k = none)))

/-- Two recalls of one item committed with the condition NOW, applied at once. A RELEASE item with TAIL lets its
instance go as R148 gives, the sends over the default ramp, at least 10 ms, and the record settles with a TRANSITION
notice (R152). A CREATE item without values, link, sends and routes is set up in PRIMING where its charge is admitted
(R149); else its slot is WAITING, and its shortfalls are added to the record (R150), where the port has no instance
that drains. -/
def Obligations.RecallAppliesAtOnce : Prop :=
  ∀ (s : State) (h : Hdr) (x : Staging), s.takes h 0x42 = true → (s.rc h.port).staging = some x → x.cond = .now →
    (∀ r, (s.rc h.port).record = some r → r.state ≠ .armed ∧ r.state ≠ .settling) →
    (∀ k i, s.inst k = some i → i.owner = h.port → i.tag ≠ some x.number) →
    (∀ slot i, x.items = [.release slot (.is .tail)] → s.inst slot = some i → i.owner = h.port → i.offer = none →
      (i.state = .running ∨ i.state = .held) →
      ∃ t j, exec (.recallCommit h) s = .next t ∧ PortsKept h s t ∧ OtherSlots s t slot ∧
        { t with ports := s.ports, insts := s.insts, recalls := s.recalls, notices := s.notices } = s ∧
        t.inst slot = some j ∧ LetsGo s.rate (s.rate.ms (max 10 x.ramp)) i j ∧ { j.core with tag := i.tag } = i.core ∧
        j.tag = none ∧ j.state = .draining ∧ j.drainStart = s.frame ∧ j.drainLimit = i.drainLimit ∧ j.quiet = 0 ∧
        j.ret = (if i.state = .held then 1 else i.ret) ∧ j.fade = i.fade ∧ j.byLimit = i.byLimit ∧
        (∀ q, q ≠ h.port → t.rc q = s.rc q) ∧
        t.rc h.port =
          { staging := none,
            record := some
              { number := x.number, state := .settled, cond := .now, clock := x.clock, ramp := x.ramp,
                applyFrame := some s.frame, items := [{ item := .release slot (.is .tail), result := some .ok }],
                shortPages := 0, shortUnits := 0, coverPages := 0, coverUnits := 0, forced := [] } } ∧
        t.np h.port = (s.np h.port).raise .transition
          { detail := .transition x.number .settled
              { ok := 1, clamped := 0, failedNoPages := 0, failedNoUnits := 0, cancelled := 0 }, frame := s.frame } ∧
        OtherNotices s t h.port ∧
        t.Answered h 0x42 .done none (.committed x.number .settled (some s.frame) [some .ok] none)) ∧
    (∀ slot form c names, x.items = [.create slot form none [] [] [] []] → formOk form = true → slot ≤ 31 →
      s.inst slot = none → s.ending = false → choiceOf s.rate form = (c, names) →
      (s.chargeTest h.port c = none →
        ∃ t i result, exec (.recallCommit h) s = .next t ∧ PortsKept h s t ∧ OtherSlots s t slot ∧
          { t with ports := s.ports, insts := s.insts, recalls := s.recalls, mem := s.mem, alloc := s.alloc } = s ∧
          t.inst slot = some i ∧ i.state = .priming ∧ i.owner = h.port ∧ i.choice = c ∧ i.tag = some x.number ∧
          i.kept = none ∧ i.primeRamp = s.rate.ms (max 10 x.ramp) ∧
          (result = if names ++ drainClamps form.drain = [] then .ok else .clamped) ∧
          t.Answered h 0x42 .done none (.committed x.number .settling (some s.frame) [some result] none)) ∧
      (∀ why, s.chargeTest h.port c = some why →
        (∀ k i, s.inst k = some i → i.owner = h.port → i.state ≠ .draining) →
        ∃ t i r, exec (.recallCommit h) s = .next t ∧ PortsKept h s t ∧ OtherSlots s t slot ∧
          { t with ports := s.ports, insts := s.insts, recalls := s.recalls, alloc := s.alloc } = s ∧
          t.inst slot = some i ∧ i.state = .waiting ∧ i.owner = h.port ∧ i.choice = c ∧ i.tag = some x.number ∧
          i.lines = [] ∧ i.pages = 0 ∧ i.units = 0 ∧
          t.alloc = { s.alloc with waiting := s.alloc.waiting ++ [slot] } ∧
          (t.rc h.port).record = some r ∧ r.state = .settling ∧ r.coverPages = 0 ∧ r.coverUnits = 0 ∧ r.forced = [] ∧
          r.shortPages = max (pagesNeeded s.rate c - s.mem.freePages)
            ((s.alloc.charge h.port (pagesNeeded s.rate c) (unitsNeeded c)).pageExcess s.straps -
              pageCommon s.straps) ∧
          r.shortUnits = max (unitsNeeded c - (unitBudget s.straps -
              (s.alloc.charged.a.units + s.alloc.charged.b.units + s.alloc.charged.c.units)))
            ((s.alloc.charge h.port (pagesNeeded s.rate c) (unitsNeeded c)).unitExcess s.straps -
              unitCommon s.straps) ∧
          t.Answered h 0x42 .done none (.committed x.number .settling (some s.frame) [none] none)))

/-- WAIT_LIMIT (R151): a member still WAITING once the frame has ended in which 480,000/960,000 frames have passed
since its record was applied (log entry 16) is FREE and off the waiting list, and its item fails with the reason of its
latest refusal. -/
def Obligations.WaitingEndsAfterTenSeconds : Prop :=
  ∀ (s : State) (slot : Nat) (i : Inst) (k : Kept) (r : Record) (f : FrameNo) (y : RecordItem),
    s.running = true → s.inst slot = some i → i.state = .waiting → i.kept = some k →
    (s.rc i.owner).record = some r → r.applyFrame = some f → r.items[k.item]? = some y →
    (s.rate.pick 480000 960000 < s.since f →
      ∃ t u, exec (.waitLimit slot) s = .next t ∧ t.inst slot = none ∧
        (∀ n, n ≠ slot →
          (t.inst n).map (fun j => { j with tag := none }) = (s.inst n).map (fun j => { j with tag := none })) ∧
        t.alloc = { s.alloc with waiting := s.alloc.waiting.erase slot } ∧
        (t.rc i.owner).record = some u ∧ (∀ q, q ≠ i.owner → t.rc q = s.rc q) ∧ OtherNotices s t i.owner ∧
        { u with state := r.state } = { r with items := (r.items.set k.item
          { y with result := some (if k.noPages then .failedNoPages else .failedNoUnits) }) } ∧
        (u.state = r.state ∨ (r.state = .settling ∧ u.state = .failed)) ∧
        { t with insts := s.insts, alloc := s.alloc, recalls := s.recalls, notices := s.notices } = s) ∧
    (s.since f ≤ s.rate.pick 480000 960000 → exec (.waitLimit slot) s = .next s)

/-- What the apply of a record makes of a state (R147 to R149, R152): an item that fails its second check is CANCELLED;
then the three passes, each over the items that stood, in list order; then the record settles, with the result FAILED where
an item has failed, once no member is PRIMING or WAITING. -/
def RecordApplied (s : State) (p : Port) (r : Record) (t : State) : Prop :=
  ∃ (ramp : Nat) (a b c d : Nat → State) (w z : State) (y : Record), ramp = s.rate.ms (max 10 r.ramp) ∧ a 0 = s ∧
    (∃ x, ((a r.items.length).rc p).record = some x ∧
      (b 0).rc p = { (a r.items.length).rc p with record := some { x with applyFrame := some s.frame } }) ∧
    (∀ q, q ≠ p → (b 0).rc q = s.rc q) ∧ { b 0 with recalls := (a r.items.length).recalls } = a r.items.length ∧
    c 0 = b r.items.length ∧ d 0 = c r.items.length ∧
    (∀ n x, r.items[n]? = some x →
      (s.itemStands p r.number x.item = true → a (n + 1) = a n ∧ b (n + 1) = (b n).passRelease p ramp n x.item ∧
        c (n + 1) = (c n).passSet p r.ramp n x.item ∧
        (s.keptOf n ramp x.item = none → d (n + 1) = d n) ∧
        ∀ k, s.keptOf n ramp x.item = some k → d (n + 1) = (d n).passCharge p r.number k) ∧
      (s.itemStands p r.number x.item = false → a (n + 1) = (a n).cancelItem p r.number n x.item ∧ b (n + 1) = b n ∧
        c (n + 1) = c n ∧ d (n + 1) = d n)) ∧
    w = d r.items.length ∧ (w.rc p).record = some y ∧ z.rc p = { w.rc p with record := some { y with state := .settling } } ∧
    (∀ q, q ≠ p → z.rc q = w.rc q) ∧ { z with recalls := w.recalls } = w ∧
    ((∃ k i, w.inst k = some i ∧ i.owner = p ∧ i.tag = some y.number ∧ (i.state = .priming ∨ i.state = .waiting)) → t = z) ∧
    ((∀ k i, w.inst k = some i → i.owner = p → i.tag = some y.number → i.state ≠ .priming ∧ i.state ≠ .waiting) →
      { t with insts := w.insts, recalls := w.recalls, notices := w.notices } = w ∧ OtherNotices w t p ∧
        (∀ q, q ≠ p → t.rc q = w.rc q) ∧
        (∀ k, t.inst k = (w.inst k).map fun i =>
          if i.owner = p ∧ i.tag = some y.number then { i with tag := none } else i) ∧
        ∃ u, (t.rc p).record = some u ∧ { u with state := y.state } = y ∧
          (u.state = if ∃ x, x ∈ y.items ∧ (x.result = some .failedNoPages ∨ x.result = some .failedNoUnits ∨
            x.result = some .cancelled) then .failed else .settled) ∧
          t.np p = (w.np p).raise .transition
            { detail := .transition y.number u.state (State.itemCounts y.items), frame := w.frame })

/-- What the third pass makes of a new instance of an item (R149, R150): its charge admitted, it is set up in PRIMING with
the item's parameter values over the defaults, its link, and its sends and those of its routes whose channel the port
holds, each at its position; refused, its slot is WAITING at the end of the waiting list, the shortfalls are added to the
record, and spillover acts. -/
def ItemCharged (s : State) (p : Port) (number slot : Nat) (form : CreateForm) (k : Kept) (t : State) : Prop :=
  ∀ (c : Choice) (names : List ClampName), choiceOf s.rate form = (c, names) →
    (s.chargeTest p c = none → (k.params.map Prod.fst).Nodup → (k.sends.map KeptPath.pos).Nodup →
      (∀ l, l = k.left ∨ l = k.right → (l.map KeptPath.pos).Nodup ∧ (l.map KeptPath.chan).Nodup) →
      (∀ n, k.link = some n → n < 4) → ∃ (j : Inst) (fpb : Option Nat) (clamped : Prop),
        t.inst slot = some j ∧ j.state = .priming ∧ j.owner = p ∧ j.choice = c ∧ j.tag = some number ∧ j.kept = none ∧
        j.link = k.link ∧ j.primeRamp = k.ramp ∧ j.pages = pagesNeeded s.rate c ∧ j.units = unitsNeeded c ∧
        j.offer = none ∧ j.shared = false ∧ OtherSlots s t slot ∧ fpb = (k.link.bind s.clock).map Clock.fpb ∧
        t.alloc = s.alloc.charge p (pagesNeeded s.rate c) (unitsNeeded c) ∧
        (∀ n, (∀ v, (n, v) ∉ k.params) → j.param n = (paramSpec s.rate c n).map (defaultParam s.rate n)) ∧
        (∀ n v sp x l, (n, v) ∈ k.params → paramSpec s.rate c n = some sp → acceptValue s.rate sp fpb v = some (x, l) →
          ∃ q, j.param n = some q ∧ q.prev = q.value ∧ q.target = q.value ∧ q.ramp = none ∧ q.xfade = none ∧ q.waiting = none ∧
            match x with
            | .gain g => q.value = g
            | .free y => q.division = none ∧ q.value = { m := keptValue s.rate sp.form y, e := 0 }
            | .division code => q.division = some code ∧ (∀ f, fpb = some f → sp.form ≠ .rate →
                q.value = { m := (syncedDelay f code (largestDelay s.rate sp) : Nat), e := 0 }) ∧
              (fpb = none → q.value = defaultVal s.rate sp)) ∧
        (∀ x, x ∈ k.sends → x.pos < 4 → j.sends[x.pos]? =
          some (some { chan := x.chan, setGain := x.gain, gain := 0, ramp := none, departing := false })) ∧
        (∀ n, n < 4 → (∀ x, x ∈ k.sends → x.pos ≠ n) → j.sends[n]? = some none) ∧
        (∀ side l, l = (match side with | .left => k.left | .right => k.right) →
          (∀ x, x ∈ l → x.pos < 2 → s.holds p x.chan = true → (j.routes side)[x.pos]? =
            some (some { chan := x.chan, setGain := x.gain, gain := x.gain, ramp := none, departing := false })) ∧
          ∀ n, n < 2 → (∀ x, x ∈ l → x.pos = n → s.holds p x.chan = false) → (j.routes side)[n]? = some none) ∧
        (clamped ↔ names ++ drainClamps form.drain ≠ [] ∨ (∃ x, x ∈ k.left ++ k.right ∧ s.holds p x.chan = false) ∨
          ∃ n v sp x l, (n, v) ∈ k.params ∧ paramSpec s.rate c n = some sp ∧ acceptValue s.rate sp fpb v = some (x, l) ∧
            l ≠ []) ∧
        ∀ r y, (s.rc p).record = some r → r.items[k.item]? = some y → ∃ z u, (t.rc p).record = some z ∧
          z.items = r.items.set k.item u ∧ u.item = y.item ∧ (clamped → u.result = some .clamped) ∧
          (¬clamped → u.result = some .ok)) ∧
    ∀ why r, s.chargeTest p c = some why → (s.rc p).record = some r → ∃ (u : State) (i : Inst) (z : Record),
      t = State.forceDrains p number 32 u ∧ u.inst slot = some i ∧ OtherSlots s u slot ∧
      { u with insts := s.insts, alloc := s.alloc, recalls := s.recalls } = s ∧
      i.state = .waiting ∧ i.owner = p ∧ i.choice = c ∧ i.tag = some number ∧ i.lines = [] ∧ i.pages = 0 ∧ i.units = 0 ∧
      i.kept = some { k with clamped := decide (names ++ drainClamps form.drain ≠ []), noPages := decide (why = .noPages) } ∧
      u.alloc = { s.alloc with waiting := s.alloc.waiting ++ [slot] } ∧ (∀ q, q ≠ p → u.rc q = s.rc q) ∧
      u.rc p = { s.rc p with record := some z } ∧
      { z with shortPages := r.shortPages, shortUnits := r.shortUnits } = r ∧
      z.shortPages = r.shortPages + max (pagesNeeded s.rate c - s.mem.freePages)
        ((s.alloc.charge p (pagesNeeded s.rate c) (unitsNeeded c)).pageExcess s.straps - pageCommon s.straps) ∧
      z.shortUnits = r.shortUnits + max (unitsNeeded c - (unitBudget s.straps -
          (s.alloc.charged.a.units + s.alloc.charged.b.units + s.alloc.charged.c.units)))
        ((s.alloc.charge p (pagesNeeded s.rate c) (unitsNeeded c)).unitExcess s.straps - unitCommon s.straps)

/-- The apply of a record and its passes (R147 to R150, R152). A commit with the condition NOW, and an event that
reaches an ARMED record, apply the record: an item that no longer stands is CANCELLED, then the three passes act over
the items that stand, in list order, and the record settles. A RELEASE and a REPLACE item let their old instance go by
their mode, TAIL or CUT, over the ramp of the sends; a pair of a SET_PARAMS item acts as the SET with the condition
NOW, its pairs one after the other; a recall of any number of RELEASE items and of SET_PARAMS items on RUNNING and HELD
instances settles at once. What is kept for the new instance of a CREATE item is the item's own, its sends and routes
at the positions of their lists (log entry 69), for that of a REPLACE item the live sends and routes of the old
instance (departing ones are not kept, log entry 21); its charge admitted, it is set up with them, else its slot is
WAITING. Spillover forces the port's own drains to FADING, the oldest first and the lower slot of two, as long as the
cover falls short of either sum of shortfalls, and stops when it is enough or none is left; each one forced adds its
pages and units to the cover, and the record lists them in the order of the forcing. -/
def Obligations.RecallPassesReleaseSetAndForce : Prop :=
  (∀ (s : State) (p : Port) (ramp n slot : Nat) (i : Inst) (mode : RelMode), s.inst slot = some i → i.offer = none →
    (i.state = .running ∨ i.state = .held) →
    ∀ item t, (item = .release slot (.is mode) ∨ ∃ new form params, item = .replace slot new form params (.is mode)) →
      t = s.passRelease p ramp n item →
      ∃ j, t.inst slot = some j ∧ OtherSlots s t slot ∧ { t with insts := s.insts, recalls := s.recalls } = s ∧
        LetsGo s.rate ramp i j ∧ j.core = i.core ∧
        j.state = (match mode with | .tail => .draining | .cut => .fading) ∧ j.drainStart = s.frame ∧
        (mode = .cut → j.fade = 1 ∧ j.byLimit = false) ∧ j.ret = (if i.state = .held then 1 else i.ret) ∧
        (∀ q, q ≠ p → t.rc q = s.rc q) ∧
        (item ≠ .release slot (.is mode) → t.rc p = s.rc p) ∧
        (item = .release slot (.is mode) → ∀ r y, (s.rc p).record = some r → r.items[n]? = some y →
          ∃ u, (t.rc p).record = some u ∧ u.items = r.items.set n { y with result := some .ok })) ∧
  (∀ (s : State) (n ramp old new : Nat) (form : CreateForm) (params : List (Nat × ValueForm)) (policy : Sys2Proof.Field RelMode)
    (i : Inst), s.inst old = some i →
    ∃ k, s.keptOf n ramp (.replace old new form params policy) = some (new, form, k) ∧ k.item = n ∧ k.params = params ∧
      k.link = none ∧ k.ramp = ramp ∧
      (∀ x, x ∈ k.sends ↔ ∃ y, i.sends[x.pos]? = some (some y) ∧ y.departing = false ∧ x.chan = y.chan ∧ x.gain = y.setGain) ∧
      (∀ x, x ∈ k.left ↔ ∃ y, i.left[x.pos]? = some (some y) ∧ y.departing = false ∧ x.chan = y.chan ∧ x.gain = y.setGain) ∧
      ∀ x, x ∈ k.right ↔ ∃ y, i.right[x.pos]? = some (some y) ∧ y.departing = false ∧ x.chan = y.chan ∧ x.gain = y.setGain) ∧
  (∀ (s : State) (n ramp slot : Nat) (form : CreateForm) (link : Option Nat) (params : List (Nat × ValueForm))
    (sends left right : List PathForm), ∃ k, s.keptOf n ramp (.create slot form link params sends left right) =
      some (slot, form, k) ∧ k.item = n ∧ k.params = params ∧ k.link = link ∧ k.ramp = ramp ∧
      ∀ (a : List PathForm) (b : List KeptPath),
        (a = sends ∧ b = k.sends) ∨ (a = left ∧ b = k.left) ∨ (a = right ∧ b = k.right) → b.length = a.length ∧
        ∀ (m : Nat) (x : PathForm), a[m]? = some x → b[m]? = some { pos := m, chan := x.chan, gain := x.gain }) ∧
  (∀ (s : State) (h : Hdr) (ramp n slot num : Nat) (v : ValueForm) (own : Option Nat) (i : Inst) (sp : PSpec)
    (x : Accepted × List ClampName), s.takes h 0x20 = true → s.inst slot = some i → i.owner = h.port →
    (i.state = .priming ∨ i.state = .running ∨ i.state = .held) → num ≤ 31 → valueFormOk num v = true →
    paramSpec s.rate i.choice num = some sp → acceptValue s.rate sp (s.linkedFpb i) v = some x →
    ∃ t u status w taken names, exec (.set h slot ⟨num, v, own.getD ramp, .is .now⟩) s = .next u ∧
      u.Answered h 0x20 status none (.set w taken names) ∧
      t = s.passSet h.port ramp n (.setParams slot [(num, v)] own) ∧ t.inst slot = u.inst slot ∧ OtherSlots s t slot ∧
      { t with insts := s.insts, recalls := s.recalls } = s ∧ (∀ q, q ≠ h.port → t.rc q = s.rc q) ∧
      ∀ r y, (s.rc h.port).record = some r → r.items[n]? = some y → ∃ z, (t.rc h.port).record = some z ∧
        z.items = r.items.set n { y with result := some (if names = [] then .ok else .clamped) }) ∧
  (∀ (s : State) (h : Hdr) (x : Staging), s.takes h 0x42 = true → (s.rc h.port).staging = some x → x.cond = .now →
    (∀ r, (s.rc h.port).record = some r → r.state ≠ .armed ∧ r.state ≠ .settling) →
    (∀ k i, s.inst k = some i → i.owner = h.port → i.tag ≠ some x.number) →
    (∀ item, item ∈ x.items → s.itemFault h.port x.items item = none ∧
      ∃ slot i, s.inst slot = some i ∧ (i.state = .running ∨ i.state = .held) ∧
        ((∃ mode, item = .release slot (.is mode)) ∨ ∃ pairs own, item = .setParams slot pairs own)) →
    ∃ t r, exec (.recallCommit h) s = .next t ∧ (t.rc h.port).record = some r ∧ r.state = .settled ∧
      r.items.map RecordItem.item = x.items ∧
      (∀ y, y ∈ r.items → y.result = some .ok ∨ (y.result = some .clamped ∧ ∃ k pairs own, y.item = .setParams k pairs own)) ∧
      (∀ slot mode i, .release slot (.is mode) ∈ x.items → s.inst slot = some i → ∃ j, t.inst slot = some j ∧
        LetsGo s.rate (s.rate.ms (max 10 x.ramp)) i j ∧
        j.state = (match mode with | .tail => .draining | .cut => .fading)) ∧
      (∀ n slot pairs own, x.items[n]? = some (.setParams slot pairs own) → ∃ j,
        (s.passSet h.port x.ramp n (.setParams slot pairs own)).inst slot = some j ∧
        t.inst slot = some { j with tag := none }) ∧
      ∀ slot, (∀ item, item ∈ x.items → slot ∉ itemSlots item) → t.inst slot = s.inst slot) ∧
  (∀ (s : State) (p : Port) (ramp n slot : Nat) (own : Option Nat) (a : Nat × ValueForm) (rest : List (Nat × ValueForm)),
    (s.passSet p ramp n (.setParams slot (a :: rest) own)).inst slot =
      ((s.passSet p ramp n (.setParams slot [a] own)).passSet p ramp n (.setParams slot rest own)).inst slot) ∧
  (∀ (s : State) (h : Hdr) (x : Staging), s.takes h 0x42 = true → (s.rc h.port).staging = some x → x.cond = .now →
    (∀ item, item ∈ x.items → s.itemFault h.port x.items item = none) →
    (∀ r, (s.rc h.port).record = some r → r.state ≠ .armed ∧ r.state ≠ .settling) →
    ∃ (t u v : State) (r y : Record), exec (.recallCommit h) s = .next t ∧ PortsKept h s t ∧ PortsKept h s u ∧
      r = { number := x.number, state := .armed, cond := .now, clock := x.clock, ramp := x.ramp, applyFrame := none,
            items := x.items.map (fun i => { item := i, result := none }), shortPages := 0, shortUnits := 0, coverPages := 0,
            coverUnits := 0, forced := [] } ∧
      u.rc h.port = { staging := none, record := some r } ∧ (∀ q, q ≠ h.port → u.rc q = s.rc q) ∧
      { u with ports := s.ports, insts := s.insts, recalls := s.recalls } = s ∧
      (∀ k i, s.inst k = some i → (∃ item, item ∈ x.items ∧ itemOldSlot item = some k) →
        u.inst k = some { i with tag := some x.number }) ∧
      (∀ k, (∀ item, item ∈ x.items → itemOldSlot item ≠ some k) → u.inst k = s.inst k) ∧
      v = u.applyRecord h.port r ∧ { t with ports := v.ports } = v ∧ (v.rc h.port).record = some y ∧
      t.Answered h 0x42 .done none (.committed y.number y.state y.applyFrame (y.items.map RecordItem.result) none)) ∧
  (∀ (s : State) (p : Port) (r : Record), (s.rc p).record = some r → RecordApplied s p r (s.applyRecord p r)) ∧
  (∀ (s : State) (p : Port) (number n : Nat) (item : RecallItem),
    (s.itemStands p number item = true ↔
      (∀ k, itemOldSlot item = some k → OldSlotGives s p k none ∧ ∃ i, s.inst k = some i ∧ i.tag = some number) ∧
      ∀ k, itemNewSlot item = some k → s.inst k = none) ∧
    ∀ t r y, t = s.cancelItem p number n item → (s.rc p).record = some r → r.items[n]? = some y →
      (∀ q, q ≠ p → t.rc q = s.rc q) ∧ { t with insts := s.insts, recalls := s.recalls } = s ∧
      (∃ z, (t.rc p).record = some z ∧ z.items = r.items.set n { y with result := some .cancelled }) ∧
      ∀ k, t.inst k = (s.inst k).map fun i =>
        if itemOldSlot item = some k ∧ i.owner = p ∧ i.tag = some number then { i with tag := none } else i) ∧
  (∀ (s : State) (p : Port) (number slot : Nat) (form : CreateForm) (k : Kept), slot ≤ 31 → s.inst slot = none →
    ItemCharged s p number slot form k (s.passCharge p number (slot, form, k))) ∧
  ∀ (s t : State) (p : Port) (number : Nat) (r : Record), (s.rc p).record = some r →
    t = State.forceDrains p number 32 s →
    ∃ u more, (t.rc p).record = some u ∧ u.forced = r.forced ++ more ∧ more.Nodup ∧
      { u with forced := r.forced, coverPages := r.coverPages, coverUnits := r.coverUnits } = r ∧
      u.coverPages = r.coverPages + (more.map fun k => ((s.inst k).map Inst.pages).getD 0).sum ∧
      u.coverUnits = r.coverUnits + (more.map fun k => ((s.inst k).map Inst.units).getD 0).sum ∧
      (∀ k, k ∉ more → t.inst k = s.inst k) ∧
      (∀ k, k ∈ more → MayForce s p number k ∧ ∃ j, t.inst k = some j ∧ j.state = .fading ∧ j.fade = 1) ∧
      (∀ before k after, more = before ++ k :: after →
        (r.coverPages + (before.map fun n => ((s.inst n).map Inst.pages).getD 0).sum < r.shortPages ∨
          r.coverUnits + (before.map fun n => ((s.inst n).map Inst.units).getD 0).sum < r.shortUnits) ∧
        ∀ n, n ∈ after → s.drainAge n < s.drainAge k ∨ (s.drainAge n = s.drainAge k ∧ k < n)) ∧
      (∀ k k', k ∈ more → k' ∉ more → MayForce s p number k' →
        s.drainAge k' < s.drainAge k ∨ (s.drainAge k' = s.drainAge k ∧ k < k')) ∧
      ((u.shortPages ≤ u.coverPages ∧ u.shortUnits ≤ u.coverUnits) ∨ ∀ k, ¬MayForce t p number k)

/-- Admission of WAITING instances (R122, R151): freed resources are offered in list order; one whose charge is
admitted is charged, leaves the list and is PRIMING, and its item's result is decided; one that is refused keeps the
reason of this latest refusal and its place. An ACCEPT offers them after its own charges have moved (R20), a fade that
ends after its pages and charge are back (R17). One admitted at a frame's end takes part in that end's clearing, one
that went WAITING after it does not (R116; `ending` and `entered` are the model's own, log entries 7 and 15). -/
def Obligations.WaitingInstancesAreAdmitted : Prop :=
  (∀ (s : State) (slot : Nat) (i : Inst) (k : Kept), s.inst slot = some i → i.state = .waiting → i.kept = some k →
    (∀ why, s.chargeTest i.owner i.choice = some why → ∃ t, t = s.offerSlot slot ∧ OtherSlots s t slot ∧
      { t with insts := s.insts } = s ∧
      t.inst slot = some { i with kept := some { k with noPages := decide (why = .noPages) } }) ∧
    (s.chargeTest i.owner i.choice = none → ∃ t j, t = s.offerSlot slot ∧
      t.inst slot = some j ∧ j.state = .priming ∧ j.owner = i.owner ∧ j.choice = i.choice ∧ j.kept = none ∧
      j.pages = pagesNeeded s.rate i.choice ∧ j.units = unitsNeeded i.choice ∧ j.primeRamp = i.primeRamp ∧
      j.lines.map Line.capacity = lineCapacities s.rate i.choice ∧
      t.alloc = { s.alloc.charge i.owner (pagesNeeded s.rate i.choice) (unitsNeeded i.choice) with
        waiting := s.alloc.waiting.erase slot } ∧
      (∀ n, n ≠ slot →
        (t.inst n).map (fun x => { x with tag := none }) = (s.inst n).map (fun x => { x with tag := none })) ∧
      (s.ending = true → i.entered = s.frame + 1 → j.primed = i.primed ∧
        ∃ dirty, t.mem.priming = s.mem.priming ++ dirty ∧ ∀ q, q ∈ dirty → q.2 = slot) ∧
      (s.MemoryCanonical → s.ending = true → i.entered ≠ s.frame + 1 → s.mem.priming = [] →
        ((State.instPages j).filter fun p => decide (s.mem.page p ≠ .free true)).length ≤ s.mem.clearLeft →
        j.primed = true ∧ t.mem.priming = []) ∧
      (∀ r y, (s.rc i.owner).record = some r → r.items[k.item]? = some y → k.params = [] → k.left = [] → k.right = [] →
        ∃ u, (t.rc i.owner).record = some u ∧
          u.items[k.item]? = some { y with result := some (if k.clamped then .clamped else .ok) }))) ∧
  (∀ s : State, (s.alloc.waiting = [] → s.offerResources = s) ∧
    ∀ a rest, s.alloc.waiting = a :: rest → s.offerResources = rest.foldl State.offerSlot (s.offerSlot a)) ∧
  (∀ (s : State) (h : Hdr) (slot : Nat) (i : Inst) (o : Offer), s.takes h 0x16 = true → s.inst slot = some i →
    i.offer = some o → o.target = h.port → i.owner ≠ h.port → s.moveTest i.owner h.port i.pages i.units = none →
    ∃ t u, exec (.accept h slot) s = .next t ∧
      exec (.accept h slot) { s with alloc := { s.alloc with waiting := [] } } = .next u ∧
      { t with ports := s.ports } = { State.offerResources
        { u with ports := s.ports, alloc := { u.alloc with waiting := s.alloc.waiting } } with ports := s.ports }) ∧
  ∀ (s : State) (slot w : Nat) (i j : Inst) (k : Kept), s.running = true → s.mem.tableWf = true → s.inst slot = some i →
    i.state = .fading → s.rate.pick 2400 4800 < i.fade → w ≠ slot → s.inst w = some j → j.state = .waiting →
    j.kept = some k → s.alloc.waiting = [w] →
    ∃ t u : State, exec (.fadeComplete slot) s = .next t ∧ t.inst slot = none ∧ u.straps = s.straps ∧
      u.alloc = s.alloc.uncharge i.owner i.pages i.units ∧
      (∀ p, p ∈ State.instPages i → p < 8192 → u.mem.page p ∈ [.free false, .retired, .withdrawn]) ∧
      (u.chargeTest j.owner j.choice = none → t.alloc.waiting = [] ∧ ∃ x, t.inst w = some x ∧ x.state = .priming) ∧
      ∀ why, u.chargeTest j.owner j.choice = some why → t.alloc = u.alloc ∧ t.mem = u.mem ∧
        ∃ x, t.inst w = some x ∧
          { x with tag := j.tag } = { j with kept := some { k with noPages := decide (why = .noPages) } }

/-! ## Notices and error views -/

/-- NOTICE_MODE (R182), NOTICE_MASK (R179), ERROR_READ and ERROR_CLEAR (R184): mode and base are set and the stack
emptied, both masks replaced, the view read, the view emptied; a base that is not a multiple of 8 up to 248, class 0,
BANK_FAILED, NV_FAULT or an unknown name is BAD_ARGUMENT. The notices themselves and the other ports stay. NOTICE_TAKE
(R180, R181) and END_SERVICE (R182): POLLED, every pending unmasked class is given and is no longer pending; VECTORED,
the highest of them where it outranks the class in service is taken and pushed on the stack; nothing to take answers
NONE. END_SERVICE pops the top class in VECTORED mode, and none otherwise. (That its reply with no class in service
carries the depth of the stack is log entry 73.) -/
def Obligations.NoticesAreSetReadAndTaken : Prop :=
  (∀ (s : State) (h : Hdr),
    (∀ m base, s.takes h 0x50 = true → base ≤ 248 → base % 8 = 0 →
      ∃ t, exec (.noticeMode h (.is m) base) s = .next t ∧ PortsKept h s t ∧ OtherNotices s t h.port ∧
        { t with ports := s.ports, notices := s.notices } = s ∧ t.Answered h 0x50 .done none .empty ∧
        t.np h.port = { s.np h.port with mode := m, base := base, stack := [] }) ∧
    (∀ m base, s.takes h 0x50 = true → (∀ x, m ≠ .is x) ∨ 248 < base ∨ base % 8 ≠ 0 →
      Refuses (.noticeMode h m base) h 0x50 .badArgument s) ∧
    (∀ classes errors, s.takes h 0x51 = true → (∀ c, c ∈ classes → ∃ x, c = .is x ∧ x ≠ .fault) →
      (∀ e, e ∈ errors → ∃ x, e = .is x ∧ x ≠ .bankFailed ∧ x ≠ .nvFault) →
      ∃ t c e, exec (.noticeMask h classes errors) s = .next t ∧ PortsKept h s t ∧ OtherNotices s t h.port ∧
        { t with ports := s.ports, notices := s.notices } = s ∧ t.Answered h 0x51 .done none (.masks c e) ∧
        (∀ x, x ∈ c ↔ .is x ∈ classes) ∧ (∀ x, x ∈ e ↔ .is x ∈ errors) ∧
        t.np h.port = { s.np h.port with classMask := c, errorMask := e }) ∧
    (∀ classes errors, s.takes h 0x51 = true → .is NoticeClass.fault ∈ classes ∨ .unknown ∈ classes ∨ .absent ∈ classes ∨
        .is ErrorName.bankFailed ∈ errors ∨ .is ErrorName.nvFault ∈ errors ∨ .unknown ∈ errors ∨ .absent ∈ errors →
      Refuses (.noticeMask h classes errors) h 0x51 .badArgument s) ∧
    (s.takes h 0x54 = true →
      OnlyAnswers (.errorRead h) h 0x54 .done none (.errorView (s.np h.port).first (s.np h.port).next.toList) s) ∧
    (s.takes h 0x55 = true → ∃ t, exec (.errorClear h) s = .next t ∧ PortsKept h s t ∧ OtherNotices s t h.port ∧
      { t with ports := s.ports, notices := s.notices } = s ∧ t.Answered h 0x55 .done none .empty ∧
      t.np h.port = { s.np h.port with first := none, next := Vector.replicate 12 0 })) ∧
  ∀ (s : State) (h : Hdr) (n : NoticePort), s.np h.port = n →
    (s.takes h 0x52 = true → n.mode = .polled → (∀ c : NoticeClass, (n.classes.get c.idx).pending = true → c ∈ n.classMask) →
      OnlyAnswers (.noticeTake h) h 0x52 .nothing none .empty s) ∧
    (s.takes h 0x52 = true → n.mode = .polled →
      (∃ c : NoticeClass, (n.classes.get c.idx).pending = true ∧ c ∉ n.classMask) →
      ∃ t given, exec (.noticeTake h) s = .next t ∧ PortsKept h s t ∧ OtherNotices s t h.port ∧
        { t with ports := s.ports, notices := s.notices } = s ∧ t.Answered h 0x52 .done none (.notices given) ∧
        { t.np h.port with classes := n.classes } = n ∧
        given.Pairwise (fun a b => a.cls.idx < b.cls.idx) ∧
        (∀ g, g ∈ given ↔ (n.classes.get g.cls.idx).pending = true ∧ g.cls ∉ n.classMask ∧
          g.noted = (n.classes.get g.cls.idx).detail ∧ g.count = (n.classes.get g.cls.idx).count) ∧
        ∀ c : NoticeClass, (t.np h.port).classes.get c.idx =
          if (n.classes.get c.idx).pending = true ∧ c ∉ n.classMask then
            { n.classes.get c.idx with pending := false, count := 0 }
          else n.classes.get c.idx) ∧
    (∀ c, s.takes h 0x52 = true → n.mode = .vectored → (n.classes.get c.idx).pending = true → c ∉ n.classMask →
      (∀ d : NoticeClass, (n.classes.get d.idx).pending = true → d ∉ n.classMask → c.idx ≤ d.idx) →
      ((∀ d, n.stack.head? = some d → c.idx < d.idx) →
        ∃ t, exec (.noticeTake h) s = .next t ∧ PortsKept h s t ∧ OtherNotices s t h.port ∧
          { t with ports := s.ports, notices := s.notices } = s ∧
          t.Answered h 0x52 .done none (.vector (n.base + c.idx.val)
            { cls := c, noted := (n.classes.get c.idx).detail, count := (n.classes.get c.idx).count }
            (n.stack.length + 1)) ∧
          t.np h.port = { n with stack := c :: n.stack, classes := (n.classes.set c.idx
            { n.classes.get c.idx with pending := false, count := 0 }) }) ∧
      (∀ d, n.stack.head? = some d → d.idx ≤ c.idx → OnlyAnswers (.noticeTake h) h 0x52 .nothing none .empty s)) ∧
    (s.takes h 0x52 = true → n.mode = .vectored →
      (∀ c : NoticeClass, (n.classes.get c.idx).pending = true → c ∈ n.classMask) →
      OnlyAnswers (.noticeTake h) h 0x52 .nothing none .empty s) ∧
    (∀ c rest, s.takes h 0x53 = true → n.mode = .vectored → n.stack = c :: rest →
      ∃ t, exec (.endService h) s = .next t ∧ PortsKept h s t ∧ OtherNotices s t h.port ∧
        { t with ports := s.ports, notices := s.notices } = s ∧
        t.Answered h 0x53 .done none (.popped (some c) rest.length) ∧ t.np h.port = { n with stack := rest }) ∧
    (s.takes h 0x53 = true → n.mode = .polled ∨ n.stack = [] →
      OnlyAnswers (.endService h) h 0x53 .done none (.popped none n.stack.length) s)

/-- CHAIN_IN_CHANGE (R183) sets the level at a port's CHAIN IN and nothing else; ATTENTION and CHAIN OUT follow notice
state and CHAIN IN by the table of R183, and the FAULT line by R185; while RESET is asserted all are released (R173).
-/
def Obligations.LinesFollowTheNotices : Prop :=
  ∀ (s : State),
    (∀ p level, ∃ t, exec (.chainInChange p level) s = .next t ∧ OtherNotices s t p ∧ { t with notices := s.notices } = s ∧
      t.np p = { s.np p with chainIn := level }) ∧
    (∀ p, (s.running = false → s.attentionLine p = false ∧ s.chainOutLine p = false ∧ s.faultLine = false) ∧
      (s.running = true → (s.np p).mode = .polled →
        (s.attentionLine p = true ↔
          ∃ c : NoticeClass, ((s.np p).classes.get c.idx).pending = true ∧ c ∉ (s.np p).classMask) ∧
        (s.chainOutLine p = true ↔ (s.np p).chainIn = true)) ∧
      (s.running = true → (s.np p).mode = .vectored →
        (s.attentionLine p = true ↔ (s.np p).chainIn = true ∧
          ∃ c : NoticeClass, ((s.np p).classes.get c.idx).pending = true ∧ c ∉ (s.np p).classMask ∧
            ∀ d, (s.np p).stack.head? = some d → c.idx < d.idx) ∧
        (s.chainOutLine p = true ↔ (s.np p).chainIn = true ∧ (s.np p).stack = [] ∧
          ∀ c : NoticeClass, ((s.np p).classes.get c.idx).pending = true → c ∈ (s.np p).classMask))) ∧
    (s.running = true → (s.faultLine = true ↔ s.nvFault = true ∨ ∃ b, b < 4 ∧ s.mem.bankFailed b = true))

/-! ## Control ports -/

/-- FRAME_RECEIVED (R168, R169) at a port that is UP and hunts for a start: a frame whose check holds joins the queue
behind the requests that wait, or, with 8 in the queue, counts QUEUE_FULL and is answered so: the reply is sent at once
where the line is idle, held behind the reply being sent, and left out where 8 are held. A frame whose check fails
counts FRAME_CHECK and joins nothing, and so does one whose length is 251 to 255, at its length; at a port that is DOWN
nothing is received. (A reply on the line is not counted among the 8 held by log entry 60.) -/
def Obligations.CheckedFramesJoinTheQueue : Prop :=
  ∀ (s : State) (p : Port) (tag code len b0 b1 : Byte) (body chars : List Byte), s.running = true →
    chars = 0xA5#8 :: tag :: code :: len :: (body ++ [b0, b1]) → len.toNat = body.length → body.length ≤ 250 →
    (s.linkUp p = false → exec (.frameReceived p chars) s = .next s) ∧
    (s.linkUp p = true → (s.io p).rx = [] →
      ([b0, b1] = checkBytes (tag :: code :: len :: body) → (s.io p).queue.length < 8 →
        ∃ t, exec (.frameReceived p chars) s = .next t ∧ (∀ q, q ≠ p → t.io q = s.io q) ∧
          { t with ports := s.ports } = s ∧
          t.io p = { s.io p with queue := (s.io p).queue ++ [{ tag := tag, code := code, body := body }] }) ∧
      ([b0, b1] = checkBytes (tag :: code :: len :: body) → 8 ≤ (s.io p).queue.length →
        ∃ t, exec (.frameReceived p chars) s = .next t ∧ (∀ q, q ≠ p → t.io q = s.io q) ∧ OtherNotices s t p ∧
          { t with ports := s.ports, notices := s.notices } = s ∧ (t.io p).queue = (s.io p).queue ∧
          (t.io p).rest = (s.io p).rest ∧
          t.np p = (s.np p).report .queueFull { detail := .queueFull, frame := s.frame } ∧
          (t.io p).answer = (s.io p).answer ∧
          ((s.io p).sending = none → (s.io p).held = [] → (t.io p).held = [] ∧ (t.io p).sending =
            some { reply := { tag := tag, code := code + 0x80, status := .refused, reason := some .queueFull,
                              body := .empty }, sent := 0 }) ∧
          ((s.io p).sending ≠ none → (s.io p).held.length < 8 →
            (t.io p).sending = (s.io p).sending ∧ (t.io p).held = (s.io p).held ++ [(tag, code)]) ∧
          (8 ≤ (s.io p).held.length → t.io p = s.io p)) ∧
      (∀ x : Byte, 251 ≤ x.toNat →
        ∃ t, exec (.frameReceived p [0xA5#8, tag, code, x]) s = .next t ∧ OtherNotices s t p ∧
          { t with notices := s.notices } = s ∧
          t.np p = (s.np p).report .frameCheck { detail := .frameCheck, frame := s.frame }) ∧
      ([b0, b1] ≠ checkBytes (tag :: code :: len :: body) →
        ∃ t, exec (.frameReceived p chars) s = .next t ∧ OtherNotices s t p ∧ { t with notices := s.notices } = s ∧
          t.np p = (s.np p).report .frameCheck { detail := .frameCheck, frame := s.frame }))

/-- A request is taken at its port (R167, R169, R173, R176, R168): where it is the next and no reply of one taken
before is still to be sent, it leaves the queue and its reply carries its tag and its code plus 0x80; otherwise nothing
changes (log entries 11, 12 and 13). A request that fits no form of the catalogue is answered BAD_ARGUMENT, one with a
body where its code has no fields and one without where it has fields among them. A reply without fields has a body of
status and reason alone. The transmit line carries 0xFF with no reply to send, in every link state, and otherwise the
next character of the reply's frame; a reply sent to its end gives way to a held QUEUE_FULL reply, then to the reply
that waits. (A malformed request that names a clock or a channel is answered without a report of it by log entry 51.)
-/
def Obligations.RequestsAreTakenAtTheHead : Prop :=
  (∀ (c : Instr) (h : Hdr) (code : Byte) (s : State), requestOf c = some (h, code) →
    (s.takes h code = false → exec c s = .next s) ∧
    (s.takes h code = true → ∃ t r, exec c s = .next t ∧ t.lastReply h.port = some r ∧ r.tag = h.tag ∧
      r.code = code + 0x80 ∧ (t.io h.port).queue = (s.io h.port).queue.drop 1 ∧
      ∀ q, q ≠ h.port → (t.io q).queue = (s.io q).queue)) ∧
  (∀ (s : State) (h : Hdr) (code : Byte), s.takes h code = true ↔
    s.running = true ∧ s.linkUp h.port = true ∧ (∀ v, s.vote = some v → v.carried = false) ∧
    (s.io h.port).answer = none ∧ (∀ y, (s.io h.port).sending = some y → y.reply.reason = some .queueFull) ∧
    ∀ q rest, (s.io h.port).queue = q :: rest → q.tag = h.tag ∧ q.code = code ∧ malformed q = false) ∧
  (∀ q : QueuedReq,
    (q.code ∉ [0x01#8, 0x02, 0x03, 0x04, 0x10, 0x11, 0x12, 0x13, 0x14, 0x15, 0x16, 0x17, 0x20, 0x21, 0x22, 0x23, 0x24, 0x25,
      0x26, 0x30, 0x31, 0x32, 0x33, 0x34, 0x35, 0x36, 0x40, 0x41, 0x42, 0x43, 0x44, 0x50, 0x51, 0x52, 0x53, 0x54, 0x55,
      0x60, 0x61] → malformed q = true) ∧
    (q.code ∈ [0x01#8, 0x02, 0x42, 0x43, 0x44, 0x52, 0x53, 0x54, 0x55, 0x60, 0x61] → (malformed q = true ↔ q.body ≠ [])) ∧
    (q.code ∉ [0x01#8, 0x02, 0x42, 0x43, 0x44, 0x52, 0x53, 0x54, 0x55, 0x60, 0x61] → q.body = [] → malformed q = true)) ∧
  (∀ (s : State) (p : Port) (q : QueuedReq) (rest : List QueuedReq), (s.io p).queue = q :: rest →
    (s.portReady p = true → malformed q = true → ∃ t, t = s.answerMalformed p ∧
      Unchanged { port := p, tag := q.tag } s t ∧ (t.io p).queue = rest ∧
      t.Answered { port := p, tag := q.tag } q.code .refused (some .badArgument) .empty) ∧
    (s.portReady p = false ∨ malformed q = false → s.answerMalformed p = s)) ∧
  (∀ (s : State) (p : Port), (s.running = false ∨ (s.io p).sending = none → s.lineChar p = 0xFF) ∧
    ∀ y b, s.running = true → (s.io p).sending = some y → (replyFrame y.reply)[y.sent / 8]? = some b →
      s.lineChar p = b) ∧
  (∀ r : Reply, ∃ body : List Byte, body = statusCode r.status :: reasonByte r :: replyFields r ∧ body.length ≤ 250 ∧
    replyFrame r = 0xA5#8 :: r.tag :: r.code :: BitVec.ofNat 8 body.length :: (body ++
      checkBytes (r.tag :: r.code :: BitVec.ofNat 8 body.length :: body)) ∧
    (r.body = .empty ∨ r.body = .clamped [] → body.length = 2)) ∧
  ∀ (r : Rate) (x : PortIo) (y : Sending) (n : Nat), x.sending = some y → n = y.sent + r.pick 50 25 →
    (n < 8 * (replyFrame y.reply).length → State.transmit r x = { x with sending := some { y with sent := n } }) ∧
    (8 * (replyFrame y.reply).length ≤ n → (State.transmit r x).rest = { x.rest with awaited := x.awaited && x.answer.isSome } ∧
      (State.transmit r x).queue = x.queue ∧
      (∀ q rest, x.held = q :: rest → (State.transmit r x).held = rest ∧ (State.transmit r x).answer = x.answer ∧
        (State.transmit r x).sending = some { sent := 0, reply :=
          { tag := q.1, code := q.2 + 0x80, status := .refused, reason := some .queueFull, body := .empty } }) ∧
      (x.held = [] → (State.transmit r x).held = [] ∧ (State.transmit r x).answer = none ∧
        (State.transmit r x).sending = x.answer.map fun z => { reply := z, sent := 0 }))

/-- LINK_UP (R167) after 480/960 frames of unbroken valid characters, LINK_DOWN (R177, R22, R144, R175) after
4,800/9,600 frames of silence: a lost link empties the port's queue and replies, closes its staging area, cancels its
offers, with a HANDOVER notice CANCELLED at the other port of each that is UP (R22; its detail is log entry 63), and
takes it out of the vote; record, instances, claims, clocks and notice state stay. Each raises a SYSTEM notice at the
other ports that are UP, in the frame that has ended (log entry 15). -/
def Obligations.LinksComeUpAndGoDown : Prop :=
  ∀ (s : State) (p : Port), s.running = true →
    ((s.io p).up = false → s.rate.pick 480 960 ≤ (s.io p).run →
      ∃ t, exec (.linkUp p) s = .next t ∧ t.io p = { s.io p with up := true, silence := 0, rx := [] } ∧
        (∀ q, q ≠ p → t.io q = s.io q ∧ t.np q = if s.linkUp q then
          (s.np q).raise .system { detail := .linkUp p, frame := s.frame - 1 } else s.np q) ∧ t.np p = s.np p ∧
        { t with ports := s.ports, notices := s.notices } = s) ∧
    ((s.io p).up = true ∨ (s.io p).run < s.rate.pick 480 960 → exec (.linkUp p) s = .next s) ∧
    ((s.io p).up = true → s.rate.pick 4800 9600 ≤ (s.io p).silence →
      ∃ t, exec (.linkDown p) s = .next t ∧ t.io p = PortIo.reset ∧
        (∀ q, q ≠ p → { t.io q with awaited := (s.io q).awaited } = s.io q) ∧
        t.rc p = { s.rc p with staging := none } ∧ (∀ q, q ≠ p → t.rc q = s.rc q) ∧
        (∀ k, t.inst k = (s.inst k).map fun i => match i.offer with
          | some o => if i.owner = p ∨ o.target = p then { i with offer := none } else i
          | none => i) ∧
        (∀ q, q ≠ p → s.linkUp q = true → RaisedOnce s t q .system (.linkDown p) (s.frame - 1)) ∧
        (∀ (q : Port) (told : Nat → Bool), q ≠ p → s.linkUp q = true →
          (∀ k, told k = true ↔ ∃ i o, s.inst k = some i ∧ i.offer = some o ∧
            ((i.owner = p ∧ o.target = q) ∨ (i.owner = q ∧ o.target = p))) →
          CancelTold s t q told (s.frame - 1)) ∧
        (∀ q, (q = p ∨ s.linkUp q = false) → t.np q = s.np q) ∧
        (s.vote = none → t.vote = none) ∧
        (∀ v, s.vote = some v → v.carried = false →
          ((∀ q, q ≠ p → v.voters.get q = false) → t.vote = none) ∧
          ((∃ q, q ≠ p ∧ v.voters.get q = true) → ∃ w, t.vote = some w ∧ w.voters = v.voters.set p false ∧
            w.left = v.left ∧
            (w.carried = true ↔ ∀ q, q ≠ p → s.linkUp q = true → v.voters.get q = true))) ∧
        { t with ports := s.ports, recalls := s.recalls, insts := s.insts, notices := s.notices, vote := s.vote } = s) ∧
    ((s.io p).up = false ∨ (s.io p).silence < s.rate.pick 4800 9600 → exec (.linkDown p) s = .next s)

/-- PORT_CLEAR (R174, R24, R22, R154, R163, R105, R175, R186): afterwards the port has no staging area, no record, no
owned clock and no vote, its instances are FADING at most: a PRIMING and a WAITING one is FREE, a FADING one fades on,
any other is in the first frame of its fade, its live sends on a ramp to zero, its updates, its next set and its offer
gone, a HELD one with its return begun (R24, R16); every other port's instance that is not WAITING stays as it is, but
for an offer to the port and a tag of its record; no offer of it or to it stands, the channels it held are RELEASING,
or FREE where no route to them stands (judged after its PRIMING instances are freed, log entry 78), and its notice
settings are at their defaults, its pending classes, details and error view too where it had no PRIMING instance, whose
pages may retire in the clear; where none waits, the charges of its PRIMING instances are taken back; other ports'
staging areas, clocks, masks and modes stay; a clock opened keeps all but its owner and its linked counts, the last tap
among it, and every other port that is UP has a TEMPO notice RELEASED for each clock opened on which it has a linked
instance (R105; the counts as they stand after what the clear freed has been offered, log entry 64) and a HANDOVER
notice CANCELLED for each offer between it and the port (R22; its detail is log entry 63); the reply counts what was
freed, faded, released and opened. -/
def Obligations.PortClearReturnsThePortsShare : Prop :=
  ∀ (s : State) (h : Hdr), s.takes h 0x60 = true →
    ∃ t, exec (.portClear h) s = .next t ∧ PortsKept h s t ∧ t.frame = s.frame ∧ t.straps = s.straps ∧
      t.rc h.port = { staging := none, record := none } ∧
      (∀ q, q ≠ h.port → (t.rc q).staging = (s.rc q).staging) ∧
      (∀ k i, t.inst k = some i → i.owner = h.port → i.state = .fading) ∧
      (∀ k i o, t.inst k = some i → i.offer = some o → i.owner ≠ h.port ∧ o.target ≠ h.port) ∧
      (∀ k i, s.inst k = some i → i.owner = h.port → (i.state = .waiting ∨ i.state = .priming → t.inst k = none) ∧
        (i.state ≠ .waiting → i.state ≠ .priming → ∃ j, t.inst k = some j ∧
          RoutesDepart (s.rate.pick 480 960) (fun x => s.holds h.port x.chan) i.left j.left ∧
          RoutesDepart (s.rate.pick 480 960) (fun x => s.holds h.port x.chan) i.right j.right ∧
          (i.state = .fading → { j with left := i.left, right := i.right, tag := i.tag, offer := i.offer } = i) ∧
          (i.state ≠ .fading → LetsGo s.rate (s.rate.pick 480 960) i j ∧
            { j.core with left := i.left, right := i.right, tag := i.tag } = i.core ∧ j.state = .fading ∧ j.fade = 1 ∧
            j.byLimit = false ∧ j.drainStart = (if i.state = .draining then i.drainStart else s.frame) ∧
            j.drainLimit = i.drainLimit ∧ j.quiet = i.quiet ∧ j.ret = if i.state = .held then 1 else i.ret))) ∧
      (∀ k i, s.inst k = some i → i.owner ≠ h.port → i.state ≠ .waiting → ∃ j, t.inst k = some j ∧
        { j with tag := i.tag, offer := i.offer } = i ∧
        j.offer = i.offer.filter fun o => decide (o.target ≠ h.port)) ∧
      (∀ chan, t.holds h.port chan = false) ∧
      (∀ chan c, s.holds h.port chan = true → s.claim chan = some c →
        t.claim chan = some (if t.routesTo chan = [] then { c with state := .free, owner := none }
          else { c with state := .releasing })) ∧
      ((∀ k i, s.inst k = some i → i.owner = h.port → i.state ≠ .priming) →
        t.np h.port =
          { classes := Vector.replicate 8 { pending := false, detail := none, count := 0 }, classMask := [],
            errorMask := [], mode := .polled, base := 0, stack := [], chainIn := (s.np h.port).chainIn, first := none,
            next := Vector.replicate 12 0 }) ∧
      (s.alloc.waiting = [] → ∀ q, t.alloc.charged.get q =
        if q = h.port then
          { pages := (s.alloc.charged.get q).pages - (s.primingOf h.port Inst.pages),
            units := (s.alloc.charged.get q).units - (s.primingOf h.port Inst.units) }
        else s.alloc.charged.get q) ∧
      (∀ q chan, q ≠ h.port → t.holds q chan = s.holds q chan) ∧
      (∀ k c, s.clock k = some c → ∃ d, t.clock k = some d ∧
        d.owner = (if c.owner = some h.port then none else c.owner) ∧ d.tempo = c.tempo ∧ d.phase = c.phase ∧
        d.beat = c.beat ∧ d.beats = c.beats ∧ d.series = c.series ∧ d.tapLine = c.tapLine ∧ d.fpb = c.fpb ∧
        d.lastTap = c.lastTap ∧ { d with owner := c.owner, linked := c.linked } = c) ∧
      (∀ (q : Port) (told : Nat → Bool) (n : Nat), q ≠ h.port → s.linkUp q = true →
        (∀ k, told k = true ↔ ∃ c d, s.clock k = some c ∧ c.owner = some h.port ∧ t.clock k = some d ∧
          1 ≤ d.linked.get q) → n = (List.range 4).countP told →
        (n = 0 → (t.np q).classes.get NoticeClass.tempo.idx = (s.np q).classes.get NoticeClass.tempo.idx) ∧
        (1 ≤ n → ∃ k d, told k = true ∧ t.clock k = some d ∧ (t.np q).classes.get NoticeClass.tempo.idx =
          { pending := true,
            detail := some { detail := .tempo k .released (.port h.port) d.tempo d.beats, frame := s.frame },
            count := min 255 (((s.np q).classes.get NoticeClass.tempo.idx).count + n) })) ∧
      (∀ (q : Port) (told : Nat → Bool), q ≠ h.port → s.linkUp q = true →
        (∀ k, told k = true ↔ ∃ i o, s.inst k = some i ∧ i.offer = some o ∧
          ((i.owner = h.port ∧ o.target = q ∧ i.state ≠ .waiting) ∨ (i.owner = q ∧ o.target = h.port))) →
        CancelTold s t q told s.frame) ∧
      (∀ q, q ≠ h.port → s.linkUp q = false →
        (t.np q).classes.get NoticeClass.tempo.idx = (s.np q).classes.get NoticeClass.tempo.idx ∧
        (t.np q).classes.get NoticeClass.handover.idx = (s.np q).classes.get NoticeClass.handover.idx) ∧
      (∀ v, t.vote = some v → v.voters.get h.port = false) ∧
      (t.np h.port).mode = .polled ∧ (t.np h.port).base = 0 ∧ (t.np h.port).stack = [] ∧
      (t.np h.port).classMask = [] ∧ (t.np h.port).errorMask = [] ∧
      (t.np h.port).chainIn = (s.np h.port).chainIn ∧
      (∀ q, q ≠ h.port → (t.np q).classMask = (s.np q).classMask ∧ (t.np q).errorMask = (s.np q).errorMask ∧
        (t.np q).mode = (s.np q).mode ∧ (t.np q).base = (s.np q).base ∧ (t.np q).stack = (s.np q).stack) ∧
      t.Answered h 0x60 .done none (.cleared
        ((List.range 32).countP fun k => (s.inst k).any fun i =>
          decide (i.owner = h.port ∧ (i.state = .waiting ∨ i.state = .priming)))
        ((List.range 32).countP fun k => (s.inst k).any fun i =>
          decide (i.owner = h.port ∧ (i.state = .running ∨ i.state = .held ∨ i.state = .draining)))
        ((List.range 64).countP fun c => s.holds h.port c)
        ((List.range 4).countP fun k => (s.clock k).any fun c => decide (c.owner = some h.port)))

/-- ENGINE_RESTART (R176): once a vote has carried and no reply is awaited, every block takes its start values with the
retirement list as it stands; the straps, links with their runs, lane and word-clock states and a running append are
kept, queues are emptied, every output channel is FREE and carries zero, no exhaustion mark is left, NV_FAULT no longer
stands, and RESTARTED is pending at every port whose link is UP. (The outputs at zero are log entry 35.) RESTART and
VOTE_DROPPED (R175, R176; a reply awaited is log entry 13, that a later QUEUE_FULL reply is not log entry 79, the frame
of VOTE_DROPPED log entry 15): a RESTART opens the vote with a window of 96,000/192,000 frames and VOTE_OPENED at the
other ports that are UP, or joins it; the vote carries, DONE, when its voters hold every port that is UP, and is
PENDING otherwise; a voter's second RESTART is DONE. A window at zero drops the vote, with VOTE_DROPPED at each voter
that is UP. -/
def Obligations.RestartIsVotedAndKeepsTheLinks : Prop :=
  (∀ (s : State) (v : Vote),
    s.running = true → s.vote = some v → v.carried = true → (∀ p, (s.io p).awaited = false) →
    s.integ.retired.length ≤ 64 → (∀ p, p ∈ s.integ.retired → p ≤ 8191) → s.integ.retired.Nodup →
    ∃ t, exec .engineRestart s = .next t ∧
      StartValues s t s.straps.rate (fun n p =>
        if s.linkUp p then n.raise .system { detail := .restarted, frame := 0 } else n) ∧
      PoolBuilt s t s.integ.retired ∧ t.straps = s.straps ∧ t.nvFault = false ∧ t.faultLine = false ∧
      (∀ p, (t.io p).up = (s.io p).up ∧ (t.io p).run = (s.io p).run ∧ (t.io p).silence = (s.io p).silence ∧
        (t.io p).queue = [] ∧ (t.io p).held = [] ∧ (t.io p).rx = [] ∧ (t.io p).sending = none) ∧
      t.lanes.inputs = s.lanes.inputs ∧ t.lanes.wordClock = s.lanes.wordClock ∧ t.lanes.good = s.lanes.good ∧
      t.lanes.bad = s.lanes.bad ∧ t.lanes.gate = s.lanes.gate ∧
      (∀ c, c < channelCount s.rate → t.claim c = some { state := .free, owner := none, clips := 0 }) ∧
      (∀ c, t.outputSample c = 0) ∧ t.integ.reported = [] ∧
      t.integ.retired = s.integ.retired ∧ t.integ.recorded = s.integ.recorded ∧ t.integ.append = s.integ.append ∧
      t.integ.watch = [] ∧ t.integ.queue = [] ∧ t.integ.copy = none ∧ t.integ.owed = []) ∧
  (∀ (s : State),
    (∀ (h : Hdr) (v : Vote), s.takes h 0x61 = true →
      ((s.vote = none ∧ v.voters = (⟨false, false, false⟩ : PerPort Bool).set h.port true ∧
          v.left = s.rate.pick 96000 192000) ∨
        (∃ w, s.vote = some w ∧ w.voters.get h.port = false ∧ v.voters = w.voters.set h.port true ∧
          v.left = w.left)) →
      (v.carried = true ↔ ∀ q, s.linkUp q = true → v.voters.get q = true) →
      ∃ t, exec (.restart h) s = .next t ∧ t.vote = some v ∧
        t.Answered h 0x61 (if v.carried then .done else .pending) none .empty ∧
        (∀ q, q ≠ h.port → { t.io q with awaited := (s.io q).awaited } = s.io q) ∧
        { (t.io h.port).rest with awaited := (s.io h.port).awaited } = (s.io h.port).rest ∧
        (v.carried = false → ∀ q, (t.io q).awaited = (s.io q).awaited) ∧
        (v.carried = true → ∀ q, (t.io q).awaited = ((t.io q).sending.isSome || (t.io q).answer.isSome)) ∧
        (∀ q, t.np q = if s.vote = none ∧ q ≠ h.port ∧ s.linkUp q = true then
          (s.np q).raise .system { detail := .voteOpened h.port, frame := s.frame } else s.np q) ∧
        { t with ports := s.ports, notices := s.notices, vote := s.vote } = s) ∧
    (∀ (h : Hdr) (v : Vote), s.takes h 0x61 = true → s.vote = some v → v.voters.get h.port = true →
      OnlyAnswers (.restart h) h 0x61 .done none .empty s) ∧
    (∀ v, s.running = true → s.vote = some v → v.carried = false →
      (v.left = 0 → ∃ t, exec .voteDropped s = .next t ∧ t.vote = none ∧
        (∀ q, t.np q = if v.voters.get q = true ∧ s.linkUp q = true then
          (s.np q).raise .system { detail := .voteDropped, frame := s.frame - 1 } else s.np q) ∧
        { t with notices := s.notices, vote := s.vote } = s) ∧
      (0 < v.left → exec .voteDropped s = .next s)))

/-! ## Memory integrity -/

/-- SCRUB_VISIT (R126 to R131), the first of its frame, in a frame whose number is a multiple of 16/32: by the state of
the page visited it is passed over, zeroed and made clean, or checked; a group of a clean FREE page that reads
CORRECTED is entered in the watch table and recorded at every port, the record with the page and no slot (these fields
are the model's choice, log entry 66). A page zeroed is due for the pass of R131 too (log entry 41). What the check
does to the other faulty groups stands in `ChecksPassesAndCancelledCopies`. -/
def Obligations.ScrubVisitsAPageByItsState : Prop :=
  ∀ (s : State) (n : Nat) (faults : List GroupFault), s.running = true → s.MemoryCanonical →
    (s.integ.visited = true ∨ s.frame.toNat % s.rate.pick 16 32 ≠ 0 → exec (.scrubVisit faults) s = .next s) ∧
    (s.integ.visited = false → s.frame.toNat % s.rate.pick 16 32 = 0 → n = s.frame.toNat / s.rate.pick 16 32 % 8192 →
      (s.mem.bankFailed (n / 2048) = true ∨ s.mem.page n = .retired ∨ s.mem.page n = .withdrawn ∨
          (∃ k, s.mem.page n = .target k) ∨
          (∃ hd q, s.mem.page n = .allocated hd ∧ q ∈ s.mem.priming ∧ q.1 = n) →
        exec (.scrubVisit faults) s = .next { s with integ := { s.integ with visited := true } }) ∧
      (s.mem.bankFailed (n / 2048) = false → s.mem.page n = .free false ∨ s.mem.page n = .spare false →
        ∃ t, exec (.scrubVisit faults) s = .next t ∧
          t.mem.page n = (if s.mem.page n = .free false then .free true else .spare true) ∧
          (∀ m, m ≠ n → t.mem.page m = s.mem.page m) ∧
          (∀ a, t.mem.sample a = if a / 1024 = n then 0 else s.mem.sample a) ∧
          { t.mem with table := s.mem.table, samples := s.mem.samples } = s.mem ∧
          { t with mem := s.mem, integ := s.integ } = s ∧
          t.integ = { s.integ with visited := true, passDue := some n }) ∧
      (s.mem.bankFailed (n / 2048) = false → (∀ g, g ∈ faults → g.page ≠ n) →
        (s.mem.page n = .free true ∨ s.mem.page n = .spare true ∨
          ∃ hd, s.mem.page n = .allocated hd ∧ ∀ q, q ∈ s.mem.priming → q.1 ≠ n) →
        exec (.scrubVisit faults) s =
          .next { s with integ := { s.integ with visited := true, passDue := some n } }) ∧
      (∀ g, s.mem.bankFailed (n / 2048) = false → s.mem.page n = .free true → g < 128 →
        faults = [{ page := n, group := g, outcome := .corrected }] → n ∉ s.integ.owed → n ∉ s.integ.counted →
        (∀ q, q ∈ s.integ.queue → q.page ≠ n) → (∀ c, s.integ.copy = some c → c.source ≠ n) →
        (∀ w, w ∈ s.integ.watch → w.page ≠ n) → s.integ.watch.length < 16 →
        ∃ t, exec (.scrubVisit faults) s = .next t ∧ { t with integ := s.integ, notices := s.notices } = s ∧
          t.integ = { s.integ with
            visited := true, passDue := some n, counted := n :: s.integ.counted,
            watch := s.integ.watch ++ [{ page := n, count := 1, first := s.frame, mark := true }] } ∧
          ∀ p, t.np p = (s.np p).record { name := .corrected, detail := .corrected none n, frame := s.frame }))

/-- R117, R118: a group enters its bank's failure list once; with the eighth entry the bank is FAILED, its list empty,
its FREE and SPARE pages WITHDRAWN, the FAULT line asserted, BANK_FAILED at every port. The entries of the migration
queue and of the watch table for pages of the bank go (R139, R131), the marks of its pages stay where they are
ALLOCATED alone (R141), and a copy with its source or target in the bank is cancelled: a target elsewhere is the last
SPARE, one in the bank WITHDRAWN, and a source elsewhere is owed; any other copy runs on. FAILURE_ENTRY_EXPIRY takes an
entry out once 48,000/96,000 frames have passed (log entry 16). -/
def Obligations.FailureListsFillAndExpire : Prop :=
  ∀ (s : State) (page group : Nat) (bk : Bank), s.mem.banks[page / 2048]? = some bk → s.mem.tableWf = true →
    (bk.failed = true ∨ (∃ f, f ∈ bk.failures ∧ f.page = page ∧ f.group = group) → s.enterFailure page group = s) ∧
    (bk.failed = false → (∀ f, f ∈ bk.failures → f.page ≠ page ∨ f.group ≠ group) → bk.failures.length < 7 →
      { s.enterFailure page group with mem := s.mem } = s ∧
      (s.enterFailure page group).mem = { s.mem with banks := (s.mem.banks.setIfInBounds (page / 2048)
        { failed := false, failures := bk.failures ++ [{ page := page, group := group, frame := s.frame }] }) }) ∧
    (bk.failed = false → (∀ f, f ∈ bk.failures → f.page ≠ page ∨ f.group ≠ group) → bk.failures.length = 7 →
      s.integ.copy = none → ∀ t, t = s.enterFailure page group →
      (∀ b, t.mem.banks[b]? = if b = page / 2048 then some { failed := true, failures := [] } else s.mem.banks[b]?) ∧
      (∀ p, t.mem.page p =
        if p / 2048 = page / 2048 ∧ ((s.mem.page p).isFree || (s.mem.page p).isSpare) = true then .withdrawn
        else s.mem.page p) ∧
      t.mem.spares = s.mem.spares.filter (fun p => decide (p / 2048 ≠ page / 2048)) ∧
      t.mem.samples = s.mem.samples ∧ (s.running = true → t.faultLine = true) ∧
      (∀ p, t.np p = (s.np p).report .bankFailed { detail := .bankFailed (page / 2048), frame := s.frame }) ∧
      { t with mem := s.mem, integ := s.integ, notices := s.notices } = s) ∧
    (bk.failed = false → (∀ f, f ∈ bk.failures → f.page ≠ page ∨ f.group ≠ group) → bk.failures.length = 7 →
      ∀ (t : State) (b : Nat) (left : List Nat), t = s.enterFailure page group → b = page / 2048 →
      left = s.mem.spares.filter (fun p => decide (p / 2048 ≠ b)) →
      t.integ.queue = s.integ.queue.filter (fun q => decide (q.page / 2048 ≠ b)) ∧
      t.integ.watch = s.integ.watch.filter (fun w => decide (w.page / 2048 ≠ b)) ∧
      t.integ.copy = s.integ.copy.filter (fun c => decide (c.source / 2048 ≠ b ∧ c.target / 2048 ≠ b)) ∧
      (∀ p, p ∈ t.integ.reported ↔ p ∈ s.integ.reported ∧ (p / 2048 ≠ b ∨ ∃ hd, s.mem.page p = .allocated hd)) ∧
      (∀ p, p ∈ t.integ.owed ↔ (p ∈ s.integ.owed ∧ (p / 2048 ≠ b ∨ ∃ hd, s.mem.page p = .allocated hd)) ∨
        ∃ c, s.integ.copy = some c ∧ c.source = p ∧ p / 2048 ≠ b ∧ c.target / 2048 = b) ∧
      t.integ.retired = s.integ.retired ∧
      ∀ c, s.integ.copy = some c → c.target < 8192 →
        (c.target / 2048 = b → t.mem.page c.target = .withdrawn ∧ t.mem.spares = left) ∧
        (c.target / 2048 ≠ b → c.source / 2048 = b →
          t.mem.page c.target = .spare false ∧ t.mem.spares = left ++ [c.target]) ∧
        (c.target / 2048 ≠ b → c.source / 2048 ≠ b →
          t.mem.page c.target = s.mem.page c.target ∧ t.mem.spares = left) ∧
        ∀ p, p ≠ c.target → t.mem.page p =
          if p / 2048 = b ∧ ((s.mem.page p).isFree || (s.mem.page p).isSpare) = true then .withdrawn
          else s.mem.page p) ∧
    (s.running = true → ∃ t, exec (.failureEntryExpiry page group) s = .next t ∧
      t = { s with mem := { s.mem with banks := (s.mem.banks.setIfInBounds (page / 2048)
        { bk with failures := bk.failures.filter fun f =>
            !decide (f.page = page ∧ f.group = group ∧ s.rate.pick 48000 96000 < s.since f.frame) }) } })

/-- COPY_START (R135): the head of the queue starts its copy onto the first spare that is not in its partner's bank, or
is owed and SPARES_EXHAUSTED is reported once at its owner. COPY_COMPLETE (R137): after copy frame 16 the target has
the source's place, the source is RETIRED and in the list, and RETIRED is reported at the owner in the frame that has
ended (log entry 15). (That the record also says in which list the page stood is log entry 71.) -/
def Obligations.CopiesStartAndComplete : Prop :=
  ∀ (s : State), s.running = true → s.mem.tableWf = true →
    (∀ q rest hd i, s.integ.copy = none → s.integ.queue = q :: rest → s.integ.copyTried = false →
      q.since ≠ s.frame → s.mem.page q.page = .allocated hd → s.inst hd.slot = some i →
      (∀ sp before after, s.mem.spares = before ++ sp :: after →
        (∀ x, x ∈ before → (s.partner hd).map (· / 2048) = some (x / 2048)) →
        (s.partner hd).map (· / 2048) ≠ some (sp / 2048) → sp < 8192 →
        ∃ t, exec .copyStart s = .next t ∧ { t with mem := s.mem, integ := s.integ } = s ∧
          t.integ = { s.integ with queue := rest, copyTried := true,
                                   copy := some { source := q.page, target := sp, holder := hd, pos := 1 } } ∧
          t.mem.spares = before ++ after ∧ t.mem.page sp = .target q.page ∧
          (∀ n, n ≠ sp → t.mem.page n = s.mem.page n) ∧
          { t.mem with table := s.mem.table, spares := s.mem.spares } = s.mem) ∧
      ((∀ x, x ∈ s.mem.spares → (s.partner hd).map (· / 2048) = some (x / 2048)) →
        ∃ t, exec .copyStart s = .next t ∧ { t with integ := s.integ, notices := s.notices } = s ∧
          t.integ = { s.integ with queue := rest, copyTried := true, owed := s.integ.owed.insert q.page,
                                   reported := s.integ.reported.insert q.page } ∧
          OtherNotices s t i.owner ∧
          t.np i.owner = if q.page ∈ s.integ.reported then s.np i.owner else
            (s.np i.owner).report .sparesExhausted { detail := .sparesExhausted q.page, frame := s.frame })) ∧
    (s.integ.copy ≠ none ∨ s.integ.queue = [] → exec .copyStart s = .next s) ∧
    (∀ c i, s.integ.copy = some c → s.inst c.holder.slot = some i →
      (16 < c.pos → c.source ≠ c.target → c.source < 8192 → c.target < 8192 →
        ∃ t, exec .copyComplete s = .next t ∧ OtherSlots s t c.holder.slot ∧ OtherNotices s t i.owner ∧
          { t with insts := s.insts, mem := s.mem, integ := s.integ, notices := s.notices } = s ∧
          t.inst c.holder.slot = some { i with lines := i.lines.modify c.holder.line fun l =>
            match c.holder.list with
            | .primary => { l with pages := l.pages.set c.holder.pos c.target }
            | .mirror => { l with mirrors := l.mirrors.set c.holder.pos c.target } } ∧
          t.mem.page c.target = .allocated c.holder ∧ t.mem.page c.source = .retired ∧
          (∀ n, n ≠ c.source → n ≠ c.target → t.mem.page n = s.mem.page n) ∧
          { t.mem with table := s.mem.table } = s.mem ∧
          { t.integ with late := s.integ.late } = { s.integ with
            copy := none, retired := s.integ.retired ++ [c.source], owed := s.integ.owed.erase c.source,
            reported := s.integ.reported.erase c.source } ∧
          t.np i.owner = (s.np i.owner).report .retired
            { detail := .retired c.source (some (c.holder, c.target)), frame := s.frame - 1 }) ∧
      (c.pos ≤ 16 → exec .copyComplete s = .next s))

/-- NV_APPEND_START and NV_APPEND_COMPLETE (R140, R173): with no append running the next entry of the retirement list
not yet recorded starts one of 960/1,920 frames, the whole list where the stored one could not be read; an append whose
frames have run is recorded. (The frame less of an append that starts late, and the whole list as one append, are log
entry 38.) -/
def Obligations.AppendsRecordTheList : Prop :=
  ∀ (s : State), s.running = true →
    (s.integ.append = none → s.integ.recorded < s.integ.retired.length →
      ∃ t a, exec .nvAppendStart s = .next t ∧ { t with integ := s.integ } = s ∧
        t.integ = { s.integ with append := some a, late := false } ∧
        a.left = s.rate.pick 960 1920 - (if s.integ.late then 1 else 0) ∧
        (a.upto = s.integ.recorded + 1 ∨ a.upto = s.integ.retired.length) ∧
        (s.integ.nv.checkGood = true → s.integ.nv.pages.length ≤ 64 → (∀ p, p ∈ s.integ.nv.pages → p ≤ 8191) →
          s.integ.nv.pages.Nodup → a.upto = s.integ.recorded + 1) ∧
        (s.integ.nv.checkGood = false → a.upto = s.integ.retired.length)) ∧
    (s.integ.append ≠ none ∨ s.integ.retired.length ≤ s.integ.recorded → exec .nvAppendStart s = .next s) ∧
    (∀ a, s.integ.append = some a →
      (a.left = 0 → ∃ t, exec .nvAppendComplete s = .next t ∧ { t with integ := s.integ } = s ∧
        t.integ = { s.integ with append := none, recorded := a.upto,
                                 nv := { pages := s.integ.retired.take a.upto, checkGood := true } }) ∧
      (0 < a.left → exec .nvAppendComplete s = .next s)) ∧
    (s.integ.append = none → exec .nvAppendComplete s = .next s)

/-- A request for the retirement of a page (R132 to R134, R140, R141), at most one in a frame, removes its watch entry
and acts by the state of the page: a FREE page gives way to the first spare, or is owed and told once where there is
none; an ALLOCATED page joins the migration queue, or is owed where that holds 8; a page under way, SPARE, RETIRED,
WITHDRAWN, a target or in a FAILED bank stays. A fourth correction, and any of a page that is owed, is such a request;
a page without an entry is entered with the count 1 (R130), in a full table in place of the entry with the lowest
count, the oldest first seen of those (of two alike in both the one entered first, log entry 67). -/
def Obligations.RetirementFollowsThePage : Prop :=
  ∀ (s : State) (page : Nat) (x : Integrity), s.mem.tableWf = true → page < 8192 →
    x = { s.integ with requested := page :: s.integ.requested,
                       watch := s.integ.watch.filter fun w => decide (w.page ≠ page) } →
    (page ∈ s.integ.requested → s.requestRetirement page = s) ∧
    (page ∉ s.integ.requested →
      (s.mem.bankFailed (page / 2048) = true → s.requestRetirement page = { s with integ := x }) ∧
      (s.mem.bankFailed (page / 2048) = false → ∀ t, t = s.requestRetirement page →
        (∀ clean sp rest, s.mem.page page = .free clean → s.mem.spares = sp :: rest → sp < 8192 → sp ≠ page →
          t.mem.page page = .retired ∧ t.mem.page sp = .free false ∧
          (∀ n, n ≠ page → n ≠ sp → t.mem.page n = s.mem.page n) ∧ t.mem.spares = rest ∧
          { t.mem with table := s.mem.table, spares := s.mem.spares } = s.mem ∧
          { t with mem := s.mem, integ := s.integ, notices := s.notices } = s ∧
          { t.integ with late := s.integ.late } = { x with
            retired := x.retired ++ [page], owed := x.owed.erase page, reported := x.reported.erase page } ∧
          ∀ p, t.np p = (s.np p).report .retired { detail := .retired page none, frame := s.frame }) ∧
        (∀ clean, s.mem.page page = .free clean → s.mem.spares = [] →
          { t with integ := s.integ, notices := s.notices } = s ∧
          t.integ = { x with owed := x.owed.insert page, reported := x.reported.insert page } ∧
          ∀ p, t.np p = if page ∈ s.integ.reported then s.np p else
            (s.np p).report .sparesExhausted { detail := .sparesExhausted page, frame := s.frame }) ∧
        (∀ hd i, s.mem.page page = .allocated hd → s.inst hd.slot = some i →
          (s.migrating page = true → t = { s with integ := x }) ∧
          (s.migrating page = false → s.integ.queue.length < 8 → t = { s with integ := { x with
            queue := x.queue ++ [{ page := page, since := s.frame }], owed := x.owed.erase page } }) ∧
          (s.migrating page = false → 8 ≤ s.integ.queue.length →
            { t with integ := s.integ, notices := s.notices } = s ∧ t.integ = { x with owed := x.owed.insert page } ∧
            OtherNotices s t i.owner ∧ t.np i.owner = (s.np i.owner).report .migrateQueueFull
              { detail := .migrateQueueFull hd.slot page, frame := s.frame })) ∧
        ((s.mem.page page).isSpare = true ∨ s.mem.page page = .retired ∨ s.mem.page page = .withdrawn ∨
            (∃ k, s.mem.page page = .target k) → t = { s with integ := x }))) ∧
    (s.migrating page = true ↔ (∃ q, q ∈ s.integ.queue ∧ q.page = page) ∨ ∃ c, s.integ.copy = some c ∧ c.source = page) ∧
    (page ∈ s.integ.owed → s.countCorrected page = s.requestRetirement page) ∧
    (page ∉ s.integ.owed → s.migrating page = false → page ∉ s.integ.counted →
      ((∃ b, s.mem.page page = .free b) ∨ ∃ hd, s.mem.page page = .allocated hd) →
      ∀ w : Watch, w ∈ s.integ.watch → w.page = page → (∀ v, v ∈ s.integ.watch → v.page = page → v = w) →
        (3 ≤ w.count → s.countCorrected page =
          State.requestRetirement { s with integ := { s.integ with counted := page :: s.integ.counted } } page) ∧
        (w.count < 3 → s.countCorrected page = { s with integ := { s.integ with
          counted := page :: s.integ.counted,
          watch := s.integ.watch.map fun v =>
            if v.page = page then { v with count := v.count + 1, mark := true } else v } })) ∧
    (page ∉ s.integ.owed → s.migrating page = false → page ∉ s.integ.counted →
      ((∃ b, s.mem.page page = .free b) ∨ ∃ hd, s.mem.page page = .allocated hd) →
      (∀ w, w ∈ s.integ.watch → w.page ≠ page) →
      ∀ w : Watch, w = { page := page, count := 1, first := s.frame, mark := true } →
        (s.integ.watch.length < 16 → s.countCorrected page = { s with integ := { s.integ with
          counted := page :: s.integ.counted, watch := s.integ.watch ++ [w] } }) ∧
        ∀ before v after, 16 ≤ s.integ.watch.length → s.integ.watch = before ++ v :: after →
          (∀ x, x ∈ before ++ after → x.page ≠ v.page) →
          (∀ x, x ∈ before → v.count < x.count ∨ (v.count = x.count ∧ s.since x.first < s.since v.first)) →
          (∀ x, x ∈ after → v.count < x.count ∨ (v.count = x.count ∧ s.since x.first ≤ s.since v.first)) →
          s.countCorrected page = { s with integ := { s.integ with
            counted := page :: s.integ.counted, watch := before ++ after ++ [w] } })

/-- A visit to a clean FREE, a clean SPARE or an ALLOCATED page reads its 128 groups in order, as long as its bank is
OK (R127 to R129). A CORRECTED group is recorded and counted, of a SPARE page recorded alone. Of an ALLOCATED page of a
mirrored line an UNCORRECTABLE group takes the partner's group where that reads CLEAN or CORRECTED, the partner's
CORRECTED outcome counted; where that reads UNCORRECTABLE too, both groups are zeros and both pages are handled as
failing, a partner in a FAILED bank untouched (R128). What a scrub visit does to a group that reads UNCORRECTABLE,
where its bank does not fail by it (R128, R129, R117): on every page it is zeroed or restored from the partner, and
enters the failure list; a FREE page is retired in place of the first spare, a SPARE page goes to the end of the pool,
an ALLOCATED one is queued for migration. The pass over a watch entry (R131) forgets one without a correction since the
last. A copy is cancelled where its instance becomes FREE, the source RETIRED and the target FREE (R138), and where a
bank of the two fails: the target is the last SPARE or WITHDRAWN, and a source that is not in the bank is owed (R139).
(That a CORRECTED record carries the page, with its slot where one holds the page, is log entry 66; that a group
restored from its partner is recorded as rescued is log entry 76, and that of two groups lost the page visited is
handled first log entry 77.) -/
def Obligations.ChecksPassesAndCancelledCopies : Prop :=
  (∀ (s : State) (faults : List GroupFault) (page group : Nat) (bk : Bank) (banks : Vector Bank 4), s.MemoryCanonical →
    page < 8192 → group < 128 → s.mem.banks[page / 2048]? = some bk → bk.failed = false → bk.failures.length < 7 →
    (∀ f, f ∈ bk.failures → f.page ≠ page ∨ f.group ≠ group) → s.outcome faults page group = .uncorrectable →
    page ∉ s.integ.requested → banks = s.mem.banks.setIfInBounds (page / 2048)
      { failed := false, failures := bk.failures ++ [{ page := page, group := group, frame := s.frame }] } →
    (∀ t, t = s.scrubSpare faults page group → s.mem.page page = .spare true →
      GroupBecomes s.mem t.mem page group (fun _ => 0) ∧ t.mem.banks = banks ∧ t.integ = s.integ ∧
      t.mem.spares = (if page ∈ s.mem.spares then s.mem.spares.erase page ++ [page] else s.mem.spares) ∧
      (∀ n, t.mem.page n = s.mem.page n) ∧
      (∀ p, t.np p = (s.np p).report .uncorrectable { detail := .uncorrectable none page false, frame := s.frame })) ∧
    (∀ t sp rest, t = s.scrubFree faults page group → s.mem.page page = .free true → s.mem.spares = sp :: rest →
      sp < 8192 → sp ≠ page →
      GroupBecomes s.mem t.mem page group (fun _ => 0) ∧ t.mem.banks = banks ∧ t.mem.page page = .retired ∧
      t.mem.page sp = .free false ∧ t.mem.spares = rest ∧ t.integ.retired = s.integ.retired ++ [page]) ∧
    (∀ t hd, t = s.scrubAllocated faults hd page group → s.mem.page page = .allocated hd → s.migrating page = false →
      s.integ.queue.length < 8 →
      (s.partner hd = none →
        GroupBecomes s.mem t.mem page group (fun _ => 0) ∧ t.mem.banks = banks ∧
        t.integ.queue = s.integ.queue ++ [{ page := page, since := s.frame }] ∧
        PageTold s t page .uncorrectable (.uncorrectable (some hd.slot) page false)) ∧
      (∀ q, s.partner hd = some q → s.outcome faults q group = .clean →
        GroupBecomes s.mem t.mem page group (fun a => s.mem.sample (q * 1024 + a % 1024)) ∧ t.mem.banks = banks ∧
        t.integ.queue = s.integ.queue ++ [{ page := page, since := s.frame }] ∧
        PageTold s t page .uncorrectable (.uncorrectable (some hd.slot) page true)))) ∧
  (∀ (s : State) (n : Nat) (faults : List GroupFault) (one : State → Nat → State), s.running = true →
    s.integ.visited = false → s.frame.toNat % s.rate.pick 16 32 = 0 →
    n = s.frame.toNat / s.rate.pick 16 32 % 8192 → s.mem.bankFailed (n / 2048) = false →
    ((s.mem.page n = .free true ∧ one = fun v g => v.scrubFree faults n g) ∨
      (s.mem.page n = .spare true ∧ one = fun v g => v.scrubSpare faults n g) ∨
      ∃ hd, s.mem.page n = .allocated hd ∧ (∀ q, q ∈ s.mem.priming → q.1 ≠ n) ∧
        one = fun v g => v.scrubAllocated faults hd n g) →
    ∃ v : Nat → State, v 0 = { s with integ := { s.integ with visited := true } } ∧
      (∀ g, g < 128 → v (g + 1) = if (v g).mem.bankFailed (n / 2048) = true then v g else one (v g) g) ∧
      exec (.scrubVisit faults) s =
        .next { v 128 with integ := { (v 128).integ with passDue := some n } }) ∧
  (∀ (s t : State) (faults : List GroupFault) (page group : Nat), s.MemoryCanonical → group < 128 →
    s.mem.bankFailed (page / 2048) = false →
    (t = s.scrubFree faults page group →
      (s.outcome faults page group = .clean → t = s) ∧
      (s.outcome faults page group = .corrected → CorrectedTold s t page) ∧
      (s.outcome faults page group = .uncorrectable → ∃ u, GroupWritten s u page group (fun _ => 0) ∧
        UncorrectableTold u t page group false)) ∧
    (t = s.scrubSpare faults page group →
      (s.outcome faults page group = .clean → t = s) ∧
      (s.outcome faults page group = .corrected → { t with notices := s.notices } = s ∧
        ∀ p, t.np p = (s.np p).record { name := .corrected, detail := .corrected none page, frame := s.frame })) ∧
    ∀ hd, t = s.scrubAllocated faults hd page group →
      (s.outcome faults page group = .clean → t = s) ∧
      (s.outcome faults page group = .corrected → CorrectedTold s t page) ∧
      (s.outcome faults page group = .uncorrectable →
        (s.partner hd = none → ∃ u, GroupWritten s u page group (fun _ => 0) ∧
          UncorrectableTold u t page group false) ∧
        ∀ q, s.partner hd = some q →
          (s.outcome faults q group ≠ .uncorrectable → ∃ u v,
            GroupWritten s u page group (fun a => s.mem.sample (q * 1024 + a % 1024)) ∧
            UncorrectableTold u v page group true ∧ (s.outcome faults q group = .clean → t = v) ∧
            (s.outcome faults q group = .corrected → CorrectedTold v t q)) ∧
          (s.outcome faults q group = .uncorrectable → ∃ u v,
            { u with mem := s.mem } = s ∧ { u.mem with samples := s.mem.samples } = s.mem ∧
            (∀ a, u.mem.sample a =
              if a / 8 = page * 128 + group ∨ (a / 8 = q * 128 + group ∧ s.mem.bankFailed (q / 2048) = false) then 0
              else s.mem.sample a) ∧
            UncorrectableTold u v page group false ∧
            (s.mem.bankFailed (q / 2048) = true → t = v) ∧
            (s.mem.bankFailed (q / 2048) = false → UncorrectableTold v t q group false)))) ∧
  (∀ (s t : State) (page : Nat), t = s.watchPass page →
    { t with integ := s.integ } = s ∧ { t.integ with watch := s.integ.watch } = s.integ ∧
    ∀ w, w ∈ t.integ.watch ↔ (w ∈ s.integ.watch ∧ w.page ≠ page) ∨
      ∃ v, v ∈ s.integ.watch ∧ v.page = page ∧ v.mark = true ∧ w = { v with mark := false }) ∧
  (∀ (s t : State) (c : Copy), s.mem.tableWf = true → s.integ.copy = some c → c.source ≠ c.target → c.source < 8192 →
    c.target < 8192 → s.mem.bankFailed (c.source / 2048) = false → t = s.takeBackPage c.source →
    t.mem.page c.source = .retired ∧ t.mem.page c.target = .free false ∧
    (∀ n, n ≠ c.source → n ≠ c.target → t.mem.page n = s.mem.page n) ∧ t.integ.copy = none ∧
    t.integ.retired = s.integ.retired ++ [c.source] ∧
    ∀ p, t.np p = (s.np p).report .retired { detail := .retired c.source none, frame := s.frame }) ∧
  ∀ (s t : State) (b : Nat) (c : Copy), s.MemoryCanonical → b < 4 → s.integ.copy = some c → c.source < 8192 →
    c.target < 8192 → c.source ≠ c.target → s.mem.page c.target = .target c.source →
    s.mem.bankFailed (c.target / 2048) = false → t = s.failBank b →
    (c.target / 2048 = b → t.mem.page c.target = .withdrawn ∧ t.integ.copy = none) ∧
    (c.target / 2048 ≠ b → c.source / 2048 = b → t.integ.copy = none ∧ t.mem.page c.target = .spare false ∧
      t.mem.spares = s.mem.spares.filter (fun p => decide (p / 2048 ≠ b)) ++ [c.target]) ∧
    (c.target / 2048 = b → c.source / 2048 ≠ b → c.source ∈ t.integ.owed) ∧
    (c.target / 2048 ≠ b → c.source / 2048 ≠ b → t.integ.copy = some c ∧ t.mem.page c.target = .target c.source)

/-! ## Laws every step keeps -/

/-- R120: every step keeps the charges within the common shares. -/
def Obligations.EveryStepKeepsTheChargesFit : Prop :=
  ∀ (s t : State), s.ChargesFit → step s = .next t → t.ChargesFit

/-- R90, R94, R96, R100: every step keeps each clock's tempo, FPB, phase, beat, meter and tap intervals in their
bounds, and exactly one clock with the TAP line. -/
def Obligations.EveryStepKeepsTheClocksFit : Prop :=
  ∀ (s t : State), s.ClocksFit → step s = .next t → t.ClocksFit

/-- R178, R181, R182: every step keeps each in-service stack strictly in order of priority, every count at most 255,
and the vector base one that can be set. -/
def Obligations.EveryStepKeepsTheNoticesOrdered : Prop :=
  ∀ (s t : State), s.NoticesOrdered → step s = .next t → t.NoticesOrdered

/-- Every step keeps the two lists of the delay memory in their one canonical form (the model's own form, log entry 2).
-/
def Obligations.EveryStepKeepsTheMemoryCanonical : Prop :=
  ∀ (s t : State), s.MemoryCanonical → step s = .next t → t.MemoryCanonical

/-- R107, R111, R140, with R109, R118, R134, R135 and R139: every step keeps the page table and the lists beside it in
order. Each page is in one state, an ALLOCATED page belongs to exactly one position of one line's page list or mirror list,
the two pages of a mirrored position lie in different banks, the SPARE and RETIRED pages and the target of a copy number at
most 64, and 64 while every bank is OK. (The canonical table is the model's own form, log entry 2.) -/
def Obligations.EveryStepKeepsThePageTable : Prop :=
  ∀ (s t : State), s.PoolKept → step s = .next t → t.PoolKept

/-- R103: every step keeps each clock's linked count of a port at the number of the port's instances that are linked to
that clock, so that the sum over the four clocks is the number of its instances that have a link. -/
def Obligations.EveryStepKeepsTheLinkedCounts : Prop :=
  (∀ (s t : State), s.LinksCounted → step s = .next t → t.LinksCounted) ∧
  ∀ (s : State) (p : Port) (c : Nat → Clock), s.LinksCounted → (∀ k, k < 4 → s.clock k = some (c k)) →
    (c 0).linked.get p + (c 1).linked.get p + (c 2).linked.get p + (c 3).linked.get p =
      (List.range 32).countP fun n => (s.inst n).any fun i => decide (i.owner = p ∧ i.link ≠ none)

/-- The state at reset meets the six laws. -/
def Obligations.ResetMeetsTheLaws : Prop :=
  State.reset.ChargesFit ∧ State.reset.ClocksFit ∧ State.reset.NoticesOrdered ∧ State.reset.MemoryCanonical ∧
  State.reset.PoolKept ∧ State.reset.LinksCounted
end

