-- ==== Sys2Proof/Laws/State.lean ====
section
/-! SUPPORT. The small lemmas of the state: what reading one field gives after one update, for every named update, so that
no later proof unfolds a record. -/
namespace Sys2Proof

/-! ## Per-port entries -/

@[simp] theorem PerPort.get_set_self {α : Type} (x : PerPort α) (p : Port) (v : α) : (x.set p v).get p = v := by
  cases p <;> rfl

theorem PerPort.get_set_other {α : Type} (x : PerPort α) {p q : Port} (v : α) (h : q ≠ p) :
    (x.set p v).get q = x.get q := by
  cases p <;> cases q <;> first | rfl | exact absurd rfl h

@[simp] theorem PerPort.get_map {α β : Type} (f : α → β) (x : PerPort α) (p : Port) : (x.map f).get p = f (x.get p) := by
  cases p <;> rfl

@[simp] theorem PerPort.set_get {α : Type} (x : PerPort α) (p : Port) : x.set p (x.get p) = x := by
  cases p <;> rfl

@[simp] theorem PerPort.set_set {α : Type} (x : PerPort α) (p : Port) (v w : α) : (x.set p v).set p w = x.set p w := by
  cases p <;> rfl

/-- Two tables that agree at every port are one. -/
theorem PerPort.ext_get {α : Type} {x y : PerPort α} (h : ∀ p, x.get p = y.get p) : x = y := by
  have ha := h .a
  have hb := h .b
  have hc := h .c
  cases x
  cases y
  simp_all [PerPort.get]

theorem mem_allPorts (p : Port) : p ∈ allPorts := by cases p <;> decide

namespace Machine

/-! ## Ports -/

@[simp] theorem io_setIo_self (s : State) (p : Port) (x : PortIo) : (s.setIo p x).io p = x := by
  simp [State.io, State.setIo]

theorem io_setIo_other (s : State) {p q : Port} (x : PortIo) (h : q ≠ p) : (s.setIo p x).io q = s.io q := by
  simp [State.io, State.setIo, PerPort.get_set_other _ _ h]

theorem linkUp_setIo_other (s : State) {p q : Port} (x : PortIo) (h : q ≠ p) :
    (s.setIo p x).linkUp q = s.linkUp q := by
  simp [State.linkUp, io_setIo_other s x h]

/-! ## Notices -/

@[simp] theorem np_setNp_self (s : State) (p : Port) (x : NoticePort) : (s.setNp p x).np p = x := by
  simp [State.np, State.setNp]

theorem np_setNp_other (s : State) {p q : Port} (x : NoticePort) (h : q ≠ p) : (s.setNp p x).np q = s.np q := by
  simp [State.np, State.setNp, PerPort.get_set_other _ _ h]

/-- What a class raised at one port leaves at each (R178). -/
theorem np_raise (s : State) (p q : Port) (c : NoticeClass) (d : Detail) :
    (s.raise p c d).np q = if q = p then (s.np p).raise c { detail := d, frame := s.frame } else s.np q := by
  by_cases h : q = p
  · subst h; simp [State.raise]
  · simp [State.raise, h, np_setNp_other s _ h]

/-- What a class raised at a port with its link UP leaves at each. -/
theorem np_raiseUp (s : State) (p q : Port) (c : NoticeClass) (d : Detail) :
    (s.raiseUp p c d).np q =
      if q = p ∧ s.linkUp p = true then (s.np p).raise c { detail := d, frame := s.frame } else s.np q := by
  by_cases h : s.linkUp p = true
  · simp [State.raiseUp, h, np_raise]
  · simp [State.raiseUp, h]

/-- What an error at one port leaves at each (R184). -/
theorem np_report (s : State) (p q : Port) (e : ErrorName) (d : Detail) :
    (s.report p e d).np q = if q = p then (s.np p).report e { detail := d, frame := s.frame } else s.np q := by
  by_cases h : q = p
  · subst h; simp [State.report]
  · simp [State.report, h, np_setNp_other s _ h]

/-- A class raised keeps everything but that class's entry. -/
theorem NoticePort.raise_rest (n : NoticePort) (c : NoticeClass) (d : Noted) :
    (n.raise c d).chainIn = n.chainIn ∧ (n.raise c d).stack = n.stack ∧ (n.raise c d).base = n.base ∧
    (n.raise c d).first = n.first ∧ (n.raise c d).next = n.next ∧ (n.raise c d).errorMask = n.errorMask := by
  simp [NoticePort.raise]

/-! ## Recalls -/

@[simp] theorem rc_setRc_self (s : State) (p : Port) (x : Recall) : (s.setRc p x).rc p = x := by
  simp [State.rc, State.setRc]

theorem rc_setRc_other (s : State) {p q : Port} (x : Recall) (h : q ≠ p) : (s.setRc p x).rc q = s.rc q := by
  simp [State.rc, State.setRc, PerPort.get_set_other _ _ h]

/-- A record changed at one port. -/
theorem rc_modRecord (s : State) (p q : Port) (f : Record → Record) :
    (s.modRecord p f).rc q = if q = p then { s.rc p with record := (s.rc p).record.map f } else s.rc q := by
  by_cases h : q = p
  · subst h; simp [State.modRecord]
  · simp [State.modRecord, h, rc_setRc_other s _ h]

/-! ## Slots -/

/-- A record lies only in one of the 32 slots (R1). -/
theorem inst_lt {s : State} {k : Nat} {i : Inst} (h : s.inst k = some i) : k < 32 := by
  refine Nat.lt_of_not_le fun hk => ?_
  simp [State.inst, Vector.getElem?_eq_none hk] at h

theorem inst_setInst (s : State) (k j : Nat) (i : Inst) (h : k < 32) :
    (s.setInst k i).inst j = if j = k then some i else s.inst j := by
  by_cases e : j = k
  · subst e; simp [State.inst, State.setInst, h]
  · have e' : ¬k = j := fun x => e x.symm
    simp [State.inst, State.setInst, e, e']

theorem inst_clearSlot (s : State) (k j : Nat) : (s.clearSlot k).inst j = if j = k then none else s.inst j := by
  by_cases e : j = k
  · subst e
    by_cases h : j < 32
    · simp [State.inst, State.clearSlot, h]
    · simp [State.inst, State.clearSlot, Vector.getElem?_eq_none (Nat.le_of_not_lt h)]
  · have e' : ¬k = j := fun x => e x.symm
    simp [State.inst, State.clearSlot, e, e']

/-- A record changed in one slot. -/
theorem inst_modInst (s : State) (k j : Nat) (f : Inst → Inst) :
    (s.modInst k f).inst j = if j = k then (s.inst k).map f else s.inst j := by
  unfold State.modInst
  split
  · rename_i i h
    rw [inst_setInst s k j _ (inst_lt h), h]
    rfl
  · rename_i h
    by_cases e : j = k
    · subst e; simp [h]
    · simp [e]

/-- The record of a slot put back is no change. -/
theorem setInst_same {s : State} {k : Nat} {i : Inst} (h : s.inst k = some i) : s.setInst k i = s := by
  have hk := inst_lt h
  have e : s.insts.setIfInBounds k (some i) = s.insts := by
    apply Vector.ext
    intro j hj
    by_cases x : k = j
    · subst x
      simp [State.inst, Vector.getElem?_eq_getElem hk] at h
      simp [h]
    · simp [x]
  simp [State.setInst, e]

/-! ## Clocks -/

/-- There are four clocks (R90). -/
theorem clock_lt {s : State} {k : Nat} {c : Clock} (h : s.clock k = some c) : k < 4 := by
  refine Nat.lt_of_not_le fun hk => ?_
  simp [State.clock, Vector.getElem?_eq_none hk] at h

theorem clock_setClock (s : State) (k j : Nat) (c : Clock) (h : k < 4) :
    (s.setClock k c).clock j = if j = k then some c else s.clock j := by
  by_cases e : j = k
  · subst e; simp [State.clock, State.setClock, h]
  · have e' : ¬k = j := fun x => e x.symm
    simp [State.clock, State.setClock, e, e']

/-- One clock changed. -/
theorem clock_modClock (s : State) (k j : Nat) (f : Clock → Clock) :
    (s.modClock k f).clock j = if j = k then (s.clock k).map f else s.clock j := by
  unfold State.modClock
  split
  · rename_i c h
    rw [clock_setClock s k j _ (clock_lt h), h]
    rfl
  · rename_i h
    by_cases e : j = k
    · subst e; simp [h]
    · simp [e]

/-! ## Output channels -/

@[simp] theorem claim_setClaim_self (s : State) (k : Nat) (c : Claim) (h : k < channelCount s.rate) (h' : k < 64) :
    (s.setClaim k c).claim k = some c := by
  have hr : (s.setClaim k c).rate = s.rate := rfl
  unfold State.claim
  rw [hr, if_pos h]
  simp [State.setClaim, h']

theorem claim_setClaim_other (s : State) {k j : Nat} (c : Claim) (h : j ≠ k) : (s.setClaim k c).claim j = s.claim j := by
  have hr : (s.setClaim k c).rate = s.rate := rfl
  have e' : ¬k = j := fun x => h x.symm
  unfold State.claim
  rw [hr]
  simp [State.setClaim, e']

/-! ## Fields that no named update of another touches -/

@[simp] theorem inst_setIo (s : State) (p : Port) (x : PortIo) (k : Nat) : (s.setIo p x).inst k = s.inst k := rfl
@[simp] theorem inst_setNp (s : State) (p : Port) (x : NoticePort) (k : Nat) : (s.setNp p x).inst k = s.inst k := rfl
@[simp] theorem inst_setRc (s : State) (p : Port) (x : Recall) (k : Nat) : (s.setRc p x).inst k = s.inst k := rfl
@[simp] theorem inst_setClock (s : State) (n : Nat) (c : Clock) (k : Nat) : (s.setClock n c).inst k = s.inst k := rfl
@[simp] theorem inst_modMem (s : State) (f : DelayMem → DelayMem) (k : Nat) : (s.modMem f).inst k = s.inst k := rfl
@[simp] theorem inst_modInteg (s : State) (f : Integrity → Integrity) (k : Nat) : (s.modInteg f).inst k = s.inst k := rfl
@[simp] theorem inst_raise (s : State) (p : Port) (c : NoticeClass) (d : Detail) (k : Nat) :
    (s.raise p c d).inst k = s.inst k := rfl
@[simp] theorem inst_report (s : State) (p : Port) (e : ErrorName) (d : Detail) (k : Nat) :
    (s.report p e d).inst k = s.inst k := rfl
@[simp] theorem io_setNp (s : State) (p q : Port) (x : NoticePort) : (s.setNp p x).io q = s.io q := rfl
@[simp] theorem io_setRc (s : State) (p q : Port) (x : Recall) : (s.setRc p x).io q = s.io q := rfl
@[simp] theorem io_setInst (s : State) (k : Nat) (i : Inst) (q : Port) : (s.setInst k i).io q = s.io q := rfl
@[simp] theorem io_clearSlot (s : State) (k : Nat) (q : Port) : (s.clearSlot k).io q = s.io q := rfl
@[simp] theorem io_setClock (s : State) (n : Nat) (c : Clock) (q : Port) : (s.setClock n c).io q = s.io q := rfl
@[simp] theorem io_raise (s : State) (p : Port) (c : NoticeClass) (d : Detail) (q : Port) :
    (s.raise p c d).io q = s.io q := rfl
@[simp] theorem io_report (s : State) (p : Port) (e : ErrorName) (d : Detail) (q : Port) :
    (s.report p e d).io q = s.io q := rfl
@[simp] theorem np_setIo (s : State) (p q : Port) (x : PortIo) : (s.setIo p x).np q = s.np q := rfl
@[simp] theorem np_setRc (s : State) (p q : Port) (x : Recall) : (s.setRc p x).np q = s.np q := rfl
@[simp] theorem np_setInst (s : State) (k : Nat) (i : Inst) (q : Port) : (s.setInst k i).np q = s.np q := rfl
@[simp] theorem np_setClock (s : State) (n : Nat) (c : Clock) (q : Port) : (s.setClock n c).np q = s.np q := rfl
@[simp] theorem np_modMem (s : State) (f : DelayMem → DelayMem) (q : Port) : (s.modMem f).np q = s.np q := rfl
@[simp] theorem np_modInteg (s : State) (f : Integrity → Integrity) (q : Port) : (s.modInteg f).np q = s.np q := rfl
@[simp] theorem rc_setIo (s : State) (p q : Port) (x : PortIo) : (s.setIo p x).rc q = s.rc q := rfl
@[simp] theorem rc_setNp (s : State) (p q : Port) (x : NoticePort) : (s.setNp p x).rc q = s.rc q := rfl
@[simp] theorem rc_setInst (s : State) (k : Nat) (i : Inst) (q : Port) : (s.setInst k i).rc q = s.rc q := rfl
@[simp] theorem clock_setIo (s : State) (p : Port) (x : PortIo) (k : Nat) : (s.setIo p x).clock k = s.clock k := rfl
@[simp] theorem clock_setNp (s : State) (p : Port) (x : NoticePort) (k : Nat) : (s.setNp p x).clock k = s.clock k := rfl
@[simp] theorem clock_setInst (s : State) (j : Nat) (i : Inst) (k : Nat) : (s.setInst j i).clock k = s.clock k := rfl
@[simp] theorem rate_setIo (s : State) (p : Port) (x : PortIo) : (s.setIo p x).rate = s.rate := rfl
@[simp] theorem rate_setInst (s : State) (k : Nat) (i : Inst) : (s.setInst k i).rate = s.rate := rfl
@[simp] theorem rate_setClock (s : State) (k : Nat) (c : Clock) : (s.setClock k c).rate = s.rate := rfl

end Machine

end Sys2Proof
end

