-- ==== Sys2Proof/Laws/Frames.lean ====
section
/-! SUPPORT. What each operation over the state leaves alone: for every operation, the fields of the state that it does not
touch, as simp lemmas, so that a proof reads a field through a chain of operations without unfolding one. -/
namespace Sys2Proof.Machine

/-- A fold of operations keeps what each of them keeps. -/
theorem foldl_keeps {σ β α : Type} (π : σ → β) (f : σ → α → σ) (h : ∀ s x, π (f s x) = π s) (l : List α) (s : σ) :
    π (l.foldl f s) = π s := by
  induction l generalizing s with
  | nil => rfl
  | cons x t ih => rw [List.foldl_cons, ih, h]

@[simp] theorem keeps_setIo (s : State) (p : Port) (x : PortIo) :
    (s.setIo p x).pending = s.pending ∧ (s.setIo p x).running = s.running ∧ (s.setIo p x).straps = s.straps ∧
    (s.setIo p x).frame = s.frame ∧ (s.setIo p x).ending = s.ending ∧ (s.setIo p x).nvFault = s.nvFault ∧
    (s.setIo p x).vote = s.vote ∧ (s.setIo p x).insts = s.insts ∧ (s.setIo p x).mem = s.mem ∧
    (s.setIo p x).alloc = s.alloc ∧ (s.setIo p x).integ = s.integ ∧ (s.setIo p x).clocks = s.clocks ∧
    (s.setIo p x).recalls = s.recalls ∧ (s.setIo p x).lanes = s.lanes ∧ (s.setIo p x).notices = s.notices := by
  simp [State.setIo]

@[simp] theorem keeps_setNp (s : State) (p : Port) (x : NoticePort) :
    (s.setNp p x).pending = s.pending ∧ (s.setNp p x).running = s.running ∧ (s.setNp p x).straps = s.straps ∧
    (s.setNp p x).frame = s.frame ∧ (s.setNp p x).ending = s.ending ∧ (s.setNp p x).nvFault = s.nvFault ∧
    (s.setNp p x).ports = s.ports ∧ (s.setNp p x).vote = s.vote ∧ (s.setNp p x).insts = s.insts ∧
    (s.setNp p x).mem = s.mem ∧ (s.setNp p x).alloc = s.alloc ∧ (s.setNp p x).integ = s.integ ∧
    (s.setNp p x).clocks = s.clocks ∧ (s.setNp p x).recalls = s.recalls ∧ (s.setNp p x).lanes = s.lanes := by
  simp [State.setNp]

@[simp] theorem keeps_setRc (s : State) (p : Port) (x : Recall) :
    (s.setRc p x).pending = s.pending ∧ (s.setRc p x).running = s.running ∧ (s.setRc p x).straps = s.straps ∧
    (s.setRc p x).frame = s.frame ∧ (s.setRc p x).ending = s.ending ∧ (s.setRc p x).nvFault = s.nvFault ∧
    (s.setRc p x).ports = s.ports ∧ (s.setRc p x).vote = s.vote ∧ (s.setRc p x).insts = s.insts ∧
    (s.setRc p x).mem = s.mem ∧ (s.setRc p x).alloc = s.alloc ∧ (s.setRc p x).integ = s.integ ∧
    (s.setRc p x).clocks = s.clocks ∧ (s.setRc p x).lanes = s.lanes ∧ (s.setRc p x).notices = s.notices := by
  simp [State.setRc]

@[simp] theorem keeps_modRecord (s : State) (p : Port) (f : Record → Record) :
    (s.modRecord p f).pending = s.pending ∧ (s.modRecord p f).running = s.running ∧
    (s.modRecord p f).straps = s.straps ∧ (s.modRecord p f).frame = s.frame ∧ (s.modRecord p f).ending = s.ending ∧
    (s.modRecord p f).nvFault = s.nvFault ∧ (s.modRecord p f).ports = s.ports ∧ (s.modRecord p f).vote = s.vote ∧
    (s.modRecord p f).insts = s.insts ∧ (s.modRecord p f).mem = s.mem ∧ (s.modRecord p f).alloc = s.alloc ∧
    (s.modRecord p f).integ = s.integ ∧ (s.modRecord p f).clocks = s.clocks ∧ (s.modRecord p f).lanes = s.lanes ∧
    (s.modRecord p f).notices = s.notices := by
  simp [State.modRecord]

@[simp] theorem keeps_setInst (s : State) (k : Nat) (i : Inst) :
    (s.setInst k i).pending = s.pending ∧ (s.setInst k i).running = s.running ∧ (s.setInst k i).straps = s.straps ∧
    (s.setInst k i).frame = s.frame ∧ (s.setInst k i).ending = s.ending ∧ (s.setInst k i).nvFault = s.nvFault ∧
    (s.setInst k i).ports = s.ports ∧ (s.setInst k i).vote = s.vote ∧ (s.setInst k i).mem = s.mem ∧
    (s.setInst k i).alloc = s.alloc ∧ (s.setInst k i).integ = s.integ ∧ (s.setInst k i).clocks = s.clocks ∧
    (s.setInst k i).recalls = s.recalls ∧ (s.setInst k i).lanes = s.lanes ∧ (s.setInst k i).notices = s.notices := by
  simp [State.setInst]

@[simp] theorem keeps_clearSlot (s : State) (k : Nat) :
    (s.clearSlot k).pending = s.pending ∧ (s.clearSlot k).running = s.running ∧ (s.clearSlot k).straps = s.straps ∧
    (s.clearSlot k).frame = s.frame ∧ (s.clearSlot k).ending = s.ending ∧ (s.clearSlot k).nvFault = s.nvFault ∧
    (s.clearSlot k).ports = s.ports ∧ (s.clearSlot k).vote = s.vote ∧ (s.clearSlot k).mem = s.mem ∧
    (s.clearSlot k).alloc = s.alloc ∧ (s.clearSlot k).integ = s.integ ∧ (s.clearSlot k).clocks = s.clocks ∧
    (s.clearSlot k).recalls = s.recalls ∧ (s.clearSlot k).lanes = s.lanes ∧ (s.clearSlot k).notices = s.notices := by
  simp [State.clearSlot]

@[simp] theorem keeps_modInst (s : State) (k : Nat) (f : Inst → Inst) :
    (s.modInst k f).pending = s.pending ∧ (s.modInst k f).running = s.running ∧ (s.modInst k f).straps = s.straps ∧
    (s.modInst k f).frame = s.frame ∧ (s.modInst k f).ending = s.ending ∧ (s.modInst k f).nvFault = s.nvFault ∧
    (s.modInst k f).ports = s.ports ∧ (s.modInst k f).vote = s.vote ∧ (s.modInst k f).mem = s.mem ∧
    (s.modInst k f).alloc = s.alloc ∧ (s.modInst k f).integ = s.integ ∧ (s.modInst k f).clocks = s.clocks ∧
    (s.modInst k f).recalls = s.recalls ∧ (s.modInst k f).lanes = s.lanes ∧ (s.modInst k f).notices = s.notices := by
  unfold State.modInst; split <;> simp

@[simp] theorem keeps_setClock (s : State) (k : Nat) (c : Clock) :
    (s.setClock k c).pending = s.pending ∧ (s.setClock k c).running = s.running ∧
    (s.setClock k c).straps = s.straps ∧ (s.setClock k c).frame = s.frame ∧ (s.setClock k c).ending = s.ending ∧
    (s.setClock k c).nvFault = s.nvFault ∧ (s.setClock k c).ports = s.ports ∧ (s.setClock k c).vote = s.vote ∧
    (s.setClock k c).insts = s.insts ∧ (s.setClock k c).mem = s.mem ∧ (s.setClock k c).alloc = s.alloc ∧
    (s.setClock k c).integ = s.integ ∧ (s.setClock k c).recalls = s.recalls ∧ (s.setClock k c).lanes = s.lanes ∧
    (s.setClock k c).notices = s.notices := by
  simp [State.setClock]

@[simp] theorem keeps_modClock (s : State) (k : Nat) (f : Clock → Clock) :
    (s.modClock k f).pending = s.pending ∧ (s.modClock k f).running = s.running ∧
    (s.modClock k f).straps = s.straps ∧ (s.modClock k f).frame = s.frame ∧ (s.modClock k f).ending = s.ending ∧
    (s.modClock k f).nvFault = s.nvFault ∧ (s.modClock k f).ports = s.ports ∧ (s.modClock k f).vote = s.vote ∧
    (s.modClock k f).insts = s.insts ∧ (s.modClock k f).mem = s.mem ∧ (s.modClock k f).alloc = s.alloc ∧
    (s.modClock k f).integ = s.integ ∧ (s.modClock k f).recalls = s.recalls ∧ (s.modClock k f).lanes = s.lanes ∧
    (s.modClock k f).notices = s.notices := by
  unfold State.modClock; split <;> simp

@[simp] theorem keeps_raise (s : State) (p : Port) (c : NoticeClass) (d : Detail) :
    (s.raise p c d).pending = s.pending ∧ (s.raise p c d).running = s.running ∧ (s.raise p c d).straps = s.straps ∧
    (s.raise p c d).frame = s.frame ∧ (s.raise p c d).ending = s.ending ∧ (s.raise p c d).nvFault = s.nvFault ∧
    (s.raise p c d).ports = s.ports ∧ (s.raise p c d).vote = s.vote ∧ (s.raise p c d).insts = s.insts ∧
    (s.raise p c d).mem = s.mem ∧ (s.raise p c d).alloc = s.alloc ∧ (s.raise p c d).integ = s.integ ∧
    (s.raise p c d).clocks = s.clocks ∧ (s.raise p c d).recalls = s.recalls ∧ (s.raise p c d).lanes = s.lanes := by
  simp [State.raise]

@[simp] theorem keeps_raiseUp (s : State) (p : Port) (c : NoticeClass) (d : Detail) :
    (s.raiseUp p c d).pending = s.pending ∧ (s.raiseUp p c d).running = s.running ∧
    (s.raiseUp p c d).straps = s.straps ∧ (s.raiseUp p c d).frame = s.frame ∧ (s.raiseUp p c d).ending = s.ending ∧
    (s.raiseUp p c d).nvFault = s.nvFault ∧ (s.raiseUp p c d).ports = s.ports ∧ (s.raiseUp p c d).vote = s.vote ∧
    (s.raiseUp p c d).insts = s.insts ∧ (s.raiseUp p c d).mem = s.mem ∧ (s.raiseUp p c d).alloc = s.alloc ∧
    (s.raiseUp p c d).integ = s.integ ∧ (s.raiseUp p c d).clocks = s.clocks ∧ (s.raiseUp p c d).recalls = s.recalls ∧
    (s.raiseUp p c d).lanes = s.lanes := by
  unfold State.raiseUp; split <;> simp

@[simp] theorem keeps_raiseAll (s : State) (c : NoticeClass) (d : Detail) :
    (s.raiseAll c d).pending = s.pending ∧ (s.raiseAll c d).running = s.running ∧
    (s.raiseAll c d).straps = s.straps ∧ (s.raiseAll c d).frame = s.frame ∧ (s.raiseAll c d).ending = s.ending ∧
    (s.raiseAll c d).nvFault = s.nvFault ∧ (s.raiseAll c d).ports = s.ports ∧ (s.raiseAll c d).vote = s.vote ∧
    (s.raiseAll c d).insts = s.insts ∧ (s.raiseAll c d).mem = s.mem ∧ (s.raiseAll c d).alloc = s.alloc ∧
    (s.raiseAll c d).integ = s.integ ∧ (s.raiseAll c d).clocks = s.clocks ∧ (s.raiseAll c d).recalls = s.recalls ∧
    (s.raiseAll c d).lanes = s.lanes := by
  simp [State.raiseAll, allPorts]

@[simp] theorem keeps_raiseOthers (s : State) (p : Port) (c : NoticeClass) (d : Detail) :
    (s.raiseOthers p c d).pending = s.pending ∧ (s.raiseOthers p c d).running = s.running ∧
    (s.raiseOthers p c d).straps = s.straps ∧ (s.raiseOthers p c d).frame = s.frame ∧
    (s.raiseOthers p c d).ending = s.ending ∧ (s.raiseOthers p c d).nvFault = s.nvFault ∧
    (s.raiseOthers p c d).ports = s.ports ∧ (s.raiseOthers p c d).vote = s.vote ∧
    (s.raiseOthers p c d).insts = s.insts ∧ (s.raiseOthers p c d).mem = s.mem ∧
    (s.raiseOthers p c d).alloc = s.alloc ∧ (s.raiseOthers p c d).integ = s.integ ∧
    (s.raiseOthers p c d).clocks = s.clocks ∧ (s.raiseOthers p c d).recalls = s.recalls ∧
    (s.raiseOthers p c d).lanes = s.lanes := by
  simp only [State.raiseOthers, allPorts, List.foldl]; (repeat' (first | split | dsimp only)) <;> simp

@[simp] theorem keeps_report (s : State) (p : Port) (e : ErrorName) (d : Detail) :
    (s.report p e d).pending = s.pending ∧ (s.report p e d).running = s.running ∧
    (s.report p e d).straps = s.straps ∧ (s.report p e d).frame = s.frame ∧ (s.report p e d).ending = s.ending ∧
    (s.report p e d).nvFault = s.nvFault ∧ (s.report p e d).ports = s.ports ∧ (s.report p e d).vote = s.vote ∧
    (s.report p e d).insts = s.insts ∧ (s.report p e d).mem = s.mem ∧ (s.report p e d).alloc = s.alloc ∧
    (s.report p e d).integ = s.integ ∧ (s.report p e d).clocks = s.clocks ∧ (s.report p e d).recalls = s.recalls ∧
    (s.report p e d).lanes = s.lanes := by
  simp [State.report]

@[simp] theorem keeps_reportAll (s : State) (e : ErrorName) (d : Detail) :
    (s.reportAll e d).pending = s.pending ∧ (s.reportAll e d).running = s.running ∧
    (s.reportAll e d).straps = s.straps ∧ (s.reportAll e d).frame = s.frame ∧ (s.reportAll e d).ending = s.ending ∧
    (s.reportAll e d).nvFault = s.nvFault ∧ (s.reportAll e d).ports = s.ports ∧ (s.reportAll e d).vote = s.vote ∧
    (s.reportAll e d).insts = s.insts ∧ (s.reportAll e d).mem = s.mem ∧ (s.reportAll e d).alloc = s.alloc ∧
    (s.reportAll e d).integ = s.integ ∧ (s.reportAll e d).clocks = s.clocks ∧ (s.reportAll e d).recalls = s.recalls ∧
    (s.reportAll e d).lanes = s.lanes := by
  simp [State.reportAll, allPorts]

@[simp] theorem keeps_reportOwner (s : State) (o : Option Port) (e : ErrorName) (d : Detail) :
    (s.reportOwner o e d).pending = s.pending ∧ (s.reportOwner o e d).running = s.running ∧
    (s.reportOwner o e d).straps = s.straps ∧ (s.reportOwner o e d).frame = s.frame ∧
    (s.reportOwner o e d).ending = s.ending ∧ (s.reportOwner o e d).nvFault = s.nvFault ∧
    (s.reportOwner o e d).ports = s.ports ∧ (s.reportOwner o e d).vote = s.vote ∧
    (s.reportOwner o e d).insts = s.insts ∧ (s.reportOwner o e d).mem = s.mem ∧
    (s.reportOwner o e d).alloc = s.alloc ∧ (s.reportOwner o e d).integ = s.integ ∧
    (s.reportOwner o e d).clocks = s.clocks ∧ (s.reportOwner o e d).recalls = s.recalls ∧
    (s.reportOwner o e d).lanes = s.lanes := by
  unfold State.reportOwner; split <;> simp

@[simp] theorem keeps_dequeue (s : State) (p : Port) :
    (s.dequeue p).pending = s.pending ∧ (s.dequeue p).running = s.running ∧
    (s.dequeue p).straps = s.straps ∧ (s.dequeue p).frame = s.frame ∧
    (s.dequeue p).ending = s.ending ∧ (s.dequeue p).nvFault = s.nvFault ∧
    (s.dequeue p).vote = s.vote ∧ (s.dequeue p).insts = s.insts ∧ (s.dequeue p).mem = s.mem ∧
    (s.dequeue p).alloc = s.alloc ∧ (s.dequeue p).integ = s.integ ∧ (s.dequeue p).clocks = s.clocks ∧
    (s.dequeue p).recalls = s.recalls ∧ (s.dequeue p).lanes = s.lanes ∧
    (s.dequeue p).notices = s.notices := by
  simp [State.dequeue]

@[simp] theorem keeps_answer (s : State) (h : Hdr) (code : Byte) (a : Ans) :
    (s.answer h code a).pending = s.pending ∧ (s.answer h code a).running = s.running ∧
    (s.answer h code a).straps = s.straps ∧ (s.answer h code a).frame = s.frame ∧
    (s.answer h code a).ending = s.ending ∧ (s.answer h code a).nvFault = s.nvFault ∧
    (s.answer h code a).vote = s.vote ∧ (s.answer h code a).insts = s.insts ∧ (s.answer h code a).mem = s.mem ∧
    (s.answer h code a).alloc = s.alloc ∧ (s.answer h code a).integ = s.integ ∧
    (s.answer h code a).clocks = s.clocks ∧ (s.answer h code a).recalls = s.recalls ∧
    (s.answer h code a).lanes = s.lanes ∧ (s.answer h code a).notices = s.notices := by
  simp [State.answer]

@[simp] theorem keeps_modMem (s : State) (f : DelayMem → DelayMem) :
    (s.modMem f).pending = s.pending ∧ (s.modMem f).running = s.running ∧ (s.modMem f).straps = s.straps ∧
    (s.modMem f).frame = s.frame ∧ (s.modMem f).ending = s.ending ∧ (s.modMem f).nvFault = s.nvFault ∧
    (s.modMem f).ports = s.ports ∧ (s.modMem f).vote = s.vote ∧ (s.modMem f).insts = s.insts ∧
    (s.modMem f).alloc = s.alloc ∧ (s.modMem f).integ = s.integ ∧ (s.modMem f).clocks = s.clocks ∧
    (s.modMem f).recalls = s.recalls ∧ (s.modMem f).lanes = s.lanes ∧ (s.modMem f).notices = s.notices := by
  simp [State.modMem]

@[simp] theorem keeps_modInteg (s : State) (f : Integrity → Integrity) :
    (s.modInteg f).pending = s.pending ∧ (s.modInteg f).running = s.running ∧ (s.modInteg f).straps = s.straps ∧
    (s.modInteg f).frame = s.frame ∧ (s.modInteg f).ending = s.ending ∧ (s.modInteg f).nvFault = s.nvFault ∧
    (s.modInteg f).ports = s.ports ∧ (s.modInteg f).vote = s.vote ∧ (s.modInteg f).insts = s.insts ∧
    (s.modInteg f).mem = s.mem ∧ (s.modInteg f).alloc = s.alloc ∧ (s.modInteg f).clocks = s.clocks ∧
    (s.modInteg f).recalls = s.recalls ∧ (s.modInteg f).lanes = s.lanes ∧ (s.modInteg f).notices = s.notices := by
  simp [State.modInteg]

@[simp] theorem keeps_failCopy (s : State) (b : Nat) :
    (s.failCopy b).pending = s.pending ∧ (s.failCopy b).running = s.running ∧ (s.failCopy b).straps = s.straps ∧
    (s.failCopy b).frame = s.frame ∧ (s.failCopy b).ending = s.ending ∧ (s.failCopy b).nvFault = s.nvFault ∧
    (s.failCopy b).ports = s.ports ∧ (s.failCopy b).vote = s.vote ∧ (s.failCopy b).insts = s.insts ∧
    (s.failCopy b).alloc = s.alloc ∧ (s.failCopy b).clocks = s.clocks ∧ (s.failCopy b).recalls = s.recalls ∧
    (s.failCopy b).lanes = s.lanes ∧ (s.failCopy b).notices = s.notices := by
  unfold State.failCopy; (repeat' (first | split | dsimp only)) <;> simp

@[simp] theorem keeps_failBank (s : State) (b : Nat) :
    (s.failBank b).pending = s.pending ∧ (s.failBank b).running = s.running ∧ (s.failBank b).straps = s.straps ∧
    (s.failBank b).frame = s.frame ∧ (s.failBank b).ending = s.ending ∧ (s.failBank b).nvFault = s.nvFault ∧
    (s.failBank b).ports = s.ports ∧ (s.failBank b).vote = s.vote ∧ (s.failBank b).insts = s.insts ∧
    (s.failBank b).alloc = s.alloc ∧ (s.failBank b).clocks = s.clocks ∧ (s.failBank b).recalls = s.recalls ∧
    (s.failBank b).lanes = s.lanes := by
  simp [State.failBank]

@[simp] theorem keeps_enterFailure (s : State) (page group : Nat) :
    (s.enterFailure page group).pending = s.pending ∧ (s.enterFailure page group).running = s.running ∧
    (s.enterFailure page group).straps = s.straps ∧ (s.enterFailure page group).frame = s.frame ∧
    (s.enterFailure page group).ending = s.ending ∧ (s.enterFailure page group).nvFault = s.nvFault ∧
    (s.enterFailure page group).ports = s.ports ∧ (s.enterFailure page group).vote = s.vote ∧
    (s.enterFailure page group).insts = s.insts ∧ (s.enterFailure page group).alloc = s.alloc ∧
    (s.enterFailure page group).clocks = s.clocks ∧ (s.enterFailure page group).recalls = s.recalls ∧
    (s.enterFailure page group).lanes = s.lanes := by
  unfold State.enterFailure; (repeat' (first | split | dsimp only)) <;> simp

@[simp] theorem keeps_retirePage (s : State) (page : Nat) :
    (s.retirePage page).pending = s.pending ∧ (s.retirePage page).running = s.running ∧
    (s.retirePage page).straps = s.straps ∧ (s.retirePage page).frame = s.frame ∧
    (s.retirePage page).ending = s.ending ∧ (s.retirePage page).nvFault = s.nvFault ∧
    (s.retirePage page).ports = s.ports ∧ (s.retirePage page).vote = s.vote ∧ (s.retirePage page).insts = s.insts ∧
    (s.retirePage page).alloc = s.alloc ∧ (s.retirePage page).clocks = s.clocks ∧
    (s.retirePage page).recalls = s.recalls ∧ (s.retirePage page).lanes = s.lanes ∧
    (s.retirePage page).notices = s.notices := by
  simp [State.retirePage]

@[simp] theorem keeps_exhausted (s : State) (page : Nat) :
    (s.exhausted page).pending = s.pending ∧ (s.exhausted page).running = s.running ∧
    (s.exhausted page).straps = s.straps ∧ (s.exhausted page).frame = s.frame ∧
    (s.exhausted page).ending = s.ending ∧ (s.exhausted page).nvFault = s.nvFault ∧
    (s.exhausted page).ports = s.ports ∧ (s.exhausted page).vote = s.vote ∧ (s.exhausted page).insts = s.insts ∧
    (s.exhausted page).mem = s.mem ∧ (s.exhausted page).alloc = s.alloc ∧ (s.exhausted page).clocks = s.clocks ∧
    (s.exhausted page).recalls = s.recalls ∧ (s.exhausted page).lanes = s.lanes := by
  unfold State.exhausted; dsimp only; split <;> simp

@[simp] theorem keeps_retireFree (s : State) (page : Nat) :
    (s.retireFree page).pending = s.pending ∧ (s.retireFree page).running = s.running ∧
    (s.retireFree page).straps = s.straps ∧ (s.retireFree page).frame = s.frame ∧
    (s.retireFree page).ending = s.ending ∧ (s.retireFree page).nvFault = s.nvFault ∧
    (s.retireFree page).ports = s.ports ∧ (s.retireFree page).vote = s.vote ∧ (s.retireFree page).insts = s.insts ∧
    (s.retireFree page).alloc = s.alloc ∧ (s.retireFree page).clocks = s.clocks ∧
    (s.retireFree page).recalls = s.recalls ∧ (s.retireFree page).lanes = s.lanes := by
  unfold State.retireFree; split <;> simp

@[simp] theorem keeps_queueMigration (s : State) (page slot : Nat) :
    (s.queueMigration page slot).pending = s.pending ∧ (s.queueMigration page slot).running = s.running ∧
    (s.queueMigration page slot).straps = s.straps ∧ (s.queueMigration page slot).frame = s.frame ∧
    (s.queueMigration page slot).ending = s.ending ∧ (s.queueMigration page slot).nvFault = s.nvFault ∧
    (s.queueMigration page slot).ports = s.ports ∧ (s.queueMigration page slot).vote = s.vote ∧
    (s.queueMigration page slot).insts = s.insts ∧ (s.queueMigration page slot).mem = s.mem ∧
    (s.queueMigration page slot).alloc = s.alloc ∧ (s.queueMigration page slot).clocks = s.clocks ∧
    (s.queueMigration page slot).recalls = s.recalls ∧ (s.queueMigration page slot).lanes = s.lanes := by
  unfold State.queueMigration; split <;> simp

@[simp] theorem keeps_requestRetirement (s : State) (page : Nat) :
    (s.requestRetirement page).pending = s.pending ∧ (s.requestRetirement page).running = s.running ∧
    (s.requestRetirement page).straps = s.straps ∧ (s.requestRetirement page).frame = s.frame ∧
    (s.requestRetirement page).ending = s.ending ∧ (s.requestRetirement page).nvFault = s.nvFault ∧
    (s.requestRetirement page).ports = s.ports ∧ (s.requestRetirement page).vote = s.vote ∧
    (s.requestRetirement page).insts = s.insts ∧ (s.requestRetirement page).alloc = s.alloc ∧
    (s.requestRetirement page).clocks = s.clocks ∧ (s.requestRetirement page).recalls = s.recalls ∧
    (s.requestRetirement page).lanes = s.lanes := by
  unfold State.requestRetirement; (repeat' (first | split | dsimp only)) <;> simp

@[simp] theorem keeps_watchCount (s : State) (page : Nat) :
    (s.watchCount page).pending = s.pending ∧ (s.watchCount page).running = s.running ∧
    (s.watchCount page).straps = s.straps ∧ (s.watchCount page).frame = s.frame ∧
    (s.watchCount page).ending = s.ending ∧ (s.watchCount page).nvFault = s.nvFault ∧
    (s.watchCount page).ports = s.ports ∧ (s.watchCount page).vote = s.vote ∧ (s.watchCount page).insts = s.insts ∧
    (s.watchCount page).alloc = s.alloc ∧ (s.watchCount page).clocks = s.clocks ∧
    (s.watchCount page).recalls = s.recalls ∧ (s.watchCount page).lanes = s.lanes := by
  unfold State.watchCount; (repeat' (first | split | dsimp only)) <;> simp

@[simp] theorem keeps_countCorrected (s : State) (page : Nat) :
    (s.countCorrected page).pending = s.pending ∧ (s.countCorrected page).running = s.running ∧
    (s.countCorrected page).straps = s.straps ∧ (s.countCorrected page).frame = s.frame ∧
    (s.countCorrected page).ending = s.ending ∧ (s.countCorrected page).nvFault = s.nvFault ∧
    (s.countCorrected page).ports = s.ports ∧ (s.countCorrected page).vote = s.vote ∧
    (s.countCorrected page).insts = s.insts ∧ (s.countCorrected page).alloc = s.alloc ∧
    (s.countCorrected page).clocks = s.clocks ∧ (s.countCorrected page).recalls = s.recalls ∧
    (s.countCorrected page).lanes = s.lanes := by
  unfold State.countCorrected; (repeat' (first | split | dsimp only)) <;> simp

@[simp] theorem keeps_watchPass (s : State) (page : Nat) :
    (s.watchPass page).pending = s.pending ∧ (s.watchPass page).running = s.running ∧
    (s.watchPass page).straps = s.straps ∧ (s.watchPass page).frame = s.frame ∧
    (s.watchPass page).ending = s.ending ∧ (s.watchPass page).nvFault = s.nvFault ∧
    (s.watchPass page).ports = s.ports ∧ (s.watchPass page).vote = s.vote ∧ (s.watchPass page).insts = s.insts ∧
    (s.watchPass page).mem = s.mem ∧ (s.watchPass page).alloc = s.alloc ∧ (s.watchPass page).clocks = s.clocks ∧
    (s.watchPass page).recalls = s.recalls ∧ (s.watchPass page).lanes = s.lanes ∧
    (s.watchPass page).notices = s.notices := by
  simp [State.watchPass]

@[simp] theorem keeps_corrected (s : State) (page : Nat) :
    (s.corrected page).pending = s.pending ∧ (s.corrected page).running = s.running ∧
    (s.corrected page).straps = s.straps ∧ (s.corrected page).frame = s.frame ∧
    (s.corrected page).ending = s.ending ∧ (s.corrected page).nvFault = s.nvFault ∧
    (s.corrected page).ports = s.ports ∧ (s.corrected page).vote = s.vote ∧ (s.corrected page).insts = s.insts ∧
    (s.corrected page).alloc = s.alloc ∧ (s.corrected page).clocks = s.clocks ∧
    (s.corrected page).recalls = s.recalls ∧ (s.corrected page).lanes = s.lanes := by
  simp [State.corrected]

@[simp] theorem keeps_uncorrectable (s : State) (page group : Nat) (rescued : Bool) :
    (s.uncorrectable page group rescued).pending = s.pending ∧
    (s.uncorrectable page group rescued).running = s.running ∧
    (s.uncorrectable page group rescued).straps = s.straps ∧ (s.uncorrectable page group rescued).frame = s.frame ∧
    (s.uncorrectable page group rescued).ending = s.ending ∧
    (s.uncorrectable page group rescued).nvFault = s.nvFault ∧ (s.uncorrectable page group rescued).ports = s.ports ∧
    (s.uncorrectable page group rescued).vote = s.vote ∧ (s.uncorrectable page group rescued).insts = s.insts ∧
    (s.uncorrectable page group rescued).alloc = s.alloc ∧ (s.uncorrectable page group rescued).clocks = s.clocks ∧
    (s.uncorrectable page group rescued).recalls = s.recalls ∧ (s.uncorrectable page group rescued).lanes = s.lanes := by
  simp [State.uncorrectable]

@[simp] theorem keeps_startCopy (s : State) :
    (s.startCopy).pending = s.pending ∧ (s.startCopy).running = s.running ∧ (s.startCopy).straps = s.straps ∧
    (s.startCopy).frame = s.frame ∧ (s.startCopy).ending = s.ending ∧ (s.startCopy).nvFault = s.nvFault ∧
    (s.startCopy).ports = s.ports ∧ (s.startCopy).vote = s.vote ∧ (s.startCopy).insts = s.insts ∧
    (s.startCopy).alloc = s.alloc ∧ (s.startCopy).clocks = s.clocks ∧ (s.startCopy).recalls = s.recalls ∧
    (s.startCopy).lanes = s.lanes := by
  unfold State.startCopy; (repeat' (first | split | dsimp only)) <;> simp

@[simp] theorem keeps_askAgain (s : State) (page : Nat) (x : GroupOutcome) :
    (s.askAgain page x).pending = s.pending ∧ (s.askAgain page x).running = s.running ∧
    (s.askAgain page x).straps = s.straps ∧ (s.askAgain page x).frame = s.frame ∧
    (s.askAgain page x).ending = s.ending ∧ (s.askAgain page x).nvFault = s.nvFault ∧
    (s.askAgain page x).ports = s.ports ∧ (s.askAgain page x).vote = s.vote ∧ (s.askAgain page x).insts = s.insts ∧
    (s.askAgain page x).alloc = s.alloc ∧ (s.askAgain page x).clocks = s.clocks ∧
    (s.askAgain page x).recalls = s.recalls ∧ (s.askAgain page x).lanes = s.lanes := by
  unfold State.askAgain; split <;> simp

@[simp] theorem keeps_readPartner (s : State) (faults : List GroupFault) (c : Copy) (g : Nat) :
    ((s.readPartner faults c g).1).pending = s.pending ∧ ((s.readPartner faults c g).1).running = s.running ∧
    ((s.readPartner faults c g).1).straps = s.straps ∧ ((s.readPartner faults c g).1).frame = s.frame ∧
    ((s.readPartner faults c g).1).ending = s.ending ∧ ((s.readPartner faults c g).1).nvFault = s.nvFault ∧
    ((s.readPartner faults c g).1).ports = s.ports ∧ ((s.readPartner faults c g).1).vote = s.vote ∧
    ((s.readPartner faults c g).1).insts = s.insts ∧ ((s.readPartner faults c g).1).alloc = s.alloc ∧
    ((s.readPartner faults c g).1).clocks = s.clocks ∧ ((s.readPartner faults c g).1).recalls = s.recalls ∧
    ((s.readPartner faults c g).1).lanes = s.lanes := by
  unfold State.readPartner; split <;> simp

@[simp] theorem keeps_copyOneGroup (s : State) (faults : List GroupFault) (c : Copy) (g : Nat) :
    (s.copyOneGroup faults c g).pending = s.pending ∧ (s.copyOneGroup faults c g).running = s.running ∧
    (s.copyOneGroup faults c g).straps = s.straps ∧ (s.copyOneGroup faults c g).frame = s.frame ∧
    (s.copyOneGroup faults c g).ending = s.ending ∧ (s.copyOneGroup faults c g).nvFault = s.nvFault ∧
    (s.copyOneGroup faults c g).ports = s.ports ∧ (s.copyOneGroup faults c g).vote = s.vote ∧
    (s.copyOneGroup faults c g).insts = s.insts ∧ (s.copyOneGroup faults c g).alloc = s.alloc ∧
    (s.copyOneGroup faults c g).clocks = s.clocks ∧ (s.copyOneGroup faults c g).recalls = s.recalls ∧
    (s.copyOneGroup faults c g).lanes = s.lanes := by
  unfold State.copyOneGroup; (repeat' (first | split | dsimp only)) <;> simp

@[simp] theorem keeps_replacePage (s : State) (h : Holder) (page : Nat) :
    (s.replacePage h page).pending = s.pending ∧ (s.replacePage h page).running = s.running ∧
    (s.replacePage h page).straps = s.straps ∧ (s.replacePage h page).frame = s.frame ∧
    (s.replacePage h page).ending = s.ending ∧ (s.replacePage h page).nvFault = s.nvFault ∧
    (s.replacePage h page).ports = s.ports ∧ (s.replacePage h page).vote = s.vote ∧
    (s.replacePage h page).mem = s.mem ∧ (s.replacePage h page).alloc = s.alloc ∧
    (s.replacePage h page).integ = s.integ ∧ (s.replacePage h page).clocks = s.clocks ∧
    (s.replacePage h page).recalls = s.recalls ∧ (s.replacePage h page).lanes = s.lanes ∧
    (s.replacePage h page).notices = s.notices := by
  simp [State.replacePage]

@[simp] theorem keeps_completeCopy (s : State) :
    (s.completeCopy).pending = s.pending ∧ (s.completeCopy).running = s.running ∧
    (s.completeCopy).straps = s.straps ∧ (s.completeCopy).frame = s.frame ∧ (s.completeCopy).ending = s.ending ∧
    (s.completeCopy).nvFault = s.nvFault ∧ (s.completeCopy).ports = s.ports ∧ (s.completeCopy).vote = s.vote ∧
    (s.completeCopy).alloc = s.alloc ∧ (s.completeCopy).clocks = s.clocks ∧ (s.completeCopy).recalls = s.recalls ∧
    (s.completeCopy).lanes = s.lanes := by
  unfold State.completeCopy; (repeat' (first | split | dsimp only)) <;> simp

@[simp] theorem keeps_takeBackPlain (s : State) (page : Nat) :
    (s.takeBackPlain page).pending = s.pending ∧ (s.takeBackPlain page).running = s.running ∧
    (s.takeBackPlain page).straps = s.straps ∧ (s.takeBackPlain page).frame = s.frame ∧
    (s.takeBackPlain page).ending = s.ending ∧ (s.takeBackPlain page).nvFault = s.nvFault ∧
    (s.takeBackPlain page).ports = s.ports ∧ (s.takeBackPlain page).vote = s.vote ∧
    (s.takeBackPlain page).insts = s.insts ∧ (s.takeBackPlain page).alloc = s.alloc ∧
    (s.takeBackPlain page).clocks = s.clocks ∧ (s.takeBackPlain page).recalls = s.recalls ∧
    (s.takeBackPlain page).lanes = s.lanes := by
  unfold State.takeBackPlain; dsimp only; split <;> simp

@[simp] theorem keeps_takeBackSource (s : State) (c : Copy) :
    (s.takeBackSource c).pending = s.pending ∧ (s.takeBackSource c).running = s.running ∧
    (s.takeBackSource c).straps = s.straps ∧ (s.takeBackSource c).frame = s.frame ∧
    (s.takeBackSource c).ending = s.ending ∧ (s.takeBackSource c).nvFault = s.nvFault ∧
    (s.takeBackSource c).ports = s.ports ∧ (s.takeBackSource c).vote = s.vote ∧
    (s.takeBackSource c).insts = s.insts ∧ (s.takeBackSource c).alloc = s.alloc ∧
    (s.takeBackSource c).clocks = s.clocks ∧ (s.takeBackSource c).recalls = s.recalls ∧
    (s.takeBackSource c).lanes = s.lanes := by
  simp [State.takeBackSource]

@[simp] theorem keeps_takeBackPage (s : State) (page : Nat) :
    (s.takeBackPage page).pending = s.pending ∧ (s.takeBackPage page).running = s.running ∧
    (s.takeBackPage page).straps = s.straps ∧ (s.takeBackPage page).frame = s.frame ∧
    (s.takeBackPage page).ending = s.ending ∧ (s.takeBackPage page).nvFault = s.nvFault ∧
    (s.takeBackPage page).ports = s.ports ∧ (s.takeBackPage page).vote = s.vote ∧
    (s.takeBackPage page).insts = s.insts ∧ (s.takeBackPage page).alloc = s.alloc ∧
    (s.takeBackPage page).clocks = s.clocks ∧ (s.takeBackPage page).recalls = s.recalls ∧
    (s.takeBackPage page).lanes = s.lanes := by
  unfold State.takeBackPage; (repeat' (first | split | dsimp only)) <;> simp

@[simp] theorem keeps_scrubAllocated (s : State) (faults : List GroupFault) (h : Holder) (page g : Nat) :
    (s.scrubAllocated faults h page g).pending = s.pending ∧ (s.scrubAllocated faults h page g).running = s.running ∧
    (s.scrubAllocated faults h page g).straps = s.straps ∧ (s.scrubAllocated faults h page g).frame = s.frame ∧
    (s.scrubAllocated faults h page g).ending = s.ending ∧ (s.scrubAllocated faults h page g).nvFault = s.nvFault ∧
    (s.scrubAllocated faults h page g).ports = s.ports ∧ (s.scrubAllocated faults h page g).vote = s.vote ∧
    (s.scrubAllocated faults h page g).insts = s.insts ∧ (s.scrubAllocated faults h page g).alloc = s.alloc ∧
    (s.scrubAllocated faults h page g).clocks = s.clocks ∧ (s.scrubAllocated faults h page g).recalls = s.recalls ∧
    (s.scrubAllocated faults h page g).lanes = s.lanes := by
  unfold State.scrubAllocated; (repeat' (first | split | dsimp only)) <;> simp

@[simp] theorem keeps_scrubFree (s : State) (faults : List GroupFault) (page g : Nat) :
    (s.scrubFree faults page g).pending = s.pending ∧ (s.scrubFree faults page g).running = s.running ∧
    (s.scrubFree faults page g).straps = s.straps ∧ (s.scrubFree faults page g).frame = s.frame ∧
    (s.scrubFree faults page g).ending = s.ending ∧ (s.scrubFree faults page g).nvFault = s.nvFault ∧
    (s.scrubFree faults page g).ports = s.ports ∧ (s.scrubFree faults page g).vote = s.vote ∧
    (s.scrubFree faults page g).insts = s.insts ∧ (s.scrubFree faults page g).alloc = s.alloc ∧
    (s.scrubFree faults page g).clocks = s.clocks ∧ (s.scrubFree faults page g).recalls = s.recalls ∧
    (s.scrubFree faults page g).lanes = s.lanes := by
  unfold State.scrubFree; (repeat' (first | split | dsimp only)) <;> simp

@[simp] theorem keeps_scrubSpare (s : State) (faults : List GroupFault) (page g : Nat) :
    (s.scrubSpare faults page g).pending = s.pending ∧ (s.scrubSpare faults page g).running = s.running ∧
    (s.scrubSpare faults page g).straps = s.straps ∧ (s.scrubSpare faults page g).frame = s.frame ∧
    (s.scrubSpare faults page g).ending = s.ending ∧ (s.scrubSpare faults page g).nvFault = s.nvFault ∧
    (s.scrubSpare faults page g).ports = s.ports ∧ (s.scrubSpare faults page g).vote = s.vote ∧
    (s.scrubSpare faults page g).insts = s.insts ∧ (s.scrubSpare faults page g).alloc = s.alloc ∧
    (s.scrubSpare faults page g).clocks = s.clocks ∧ (s.scrubSpare faults page g).recalls = s.recalls ∧
    (s.scrubSpare faults page g).lanes = s.lanes := by
  unfold State.scrubSpare; (repeat' (first | split | dsimp only)) <;> simp

@[simp] theorem keeps_expireFailure (s : State) (page group : Nat) :
    (s.expireFailure page group).pending = s.pending ∧ (s.expireFailure page group).running = s.running ∧
    (s.expireFailure page group).straps = s.straps ∧ (s.expireFailure page group).frame = s.frame ∧
    (s.expireFailure page group).ending = s.ending ∧ (s.expireFailure page group).nvFault = s.nvFault ∧
    (s.expireFailure page group).ports = s.ports ∧ (s.expireFailure page group).vote = s.vote ∧
    (s.expireFailure page group).insts = s.insts ∧ (s.expireFailure page group).alloc = s.alloc ∧
    (s.expireFailure page group).integ = s.integ ∧ (s.expireFailure page group).clocks = s.clocks ∧
    (s.expireFailure page group).recalls = s.recalls ∧ (s.expireFailure page group).lanes = s.lanes ∧
    (s.expireFailure page group).notices = s.notices := by
  unfold State.expireFailure; split <;> simp

@[simp] theorem keeps_startAppend (s : State) :
    (s.startAppend).pending = s.pending ∧ (s.startAppend).running = s.running ∧ (s.startAppend).straps = s.straps ∧
    (s.startAppend).frame = s.frame ∧ (s.startAppend).ending = s.ending ∧ (s.startAppend).nvFault = s.nvFault ∧
    (s.startAppend).ports = s.ports ∧ (s.startAppend).vote = s.vote ∧ (s.startAppend).insts = s.insts ∧
    (s.startAppend).mem = s.mem ∧ (s.startAppend).alloc = s.alloc ∧ (s.startAppend).clocks = s.clocks ∧
    (s.startAppend).recalls = s.recalls ∧ (s.startAppend).lanes = s.lanes ∧ (s.startAppend).notices = s.notices := by
  unfold State.startAppend; dsimp only; split <;> simp

@[simp] theorem keeps_completeAppend (s : State) :
    (s.completeAppend).pending = s.pending ∧ (s.completeAppend).running = s.running ∧
    (s.completeAppend).straps = s.straps ∧ (s.completeAppend).frame = s.frame ∧
    (s.completeAppend).ending = s.ending ∧ (s.completeAppend).nvFault = s.nvFault ∧
    (s.completeAppend).ports = s.ports ∧ (s.completeAppend).vote = s.vote ∧ (s.completeAppend).insts = s.insts ∧
    (s.completeAppend).mem = s.mem ∧ (s.completeAppend).alloc = s.alloc ∧ (s.completeAppend).clocks = s.clocks ∧
    (s.completeAppend).recalls = s.recalls ∧ (s.completeAppend).lanes = s.lanes ∧
    (s.completeAppend).notices = s.notices := by
  unfold State.completeAppend; (repeat' (first | split | dsimp only)) <;> simp

/-- The groups of a page, one after the other, keep what one of them keeps. -/
theorem scrubGroups_keeps {β : Type} (π : State → β) (s : State) (page : Nat) (one : State → Nat → State)
    (h : ∀ t g, π (one t g) = π t) : π (s.scrubGroups page one) = π s := by
  unfold State.scrubGroups
  exact foldl_keeps π _ (fun t g => by split <;> simp [h]) _ _

@[simp] theorem keeps_scrubPageVisit (s : State) (faults : List GroupFault) (page : Nat) :
    (s.scrubPageVisit faults page).pending = s.pending ∧ (s.scrubPageVisit faults page).running = s.running ∧
    (s.scrubPageVisit faults page).straps = s.straps ∧ (s.scrubPageVisit faults page).frame = s.frame ∧
    (s.scrubPageVisit faults page).ending = s.ending ∧ (s.scrubPageVisit faults page).nvFault = s.nvFault ∧
    (s.scrubPageVisit faults page).ports = s.ports ∧ (s.scrubPageVisit faults page).vote = s.vote ∧
    (s.scrubPageVisit faults page).insts = s.insts ∧ (s.scrubPageVisit faults page).alloc = s.alloc ∧
    (s.scrubPageVisit faults page).clocks = s.clocks ∧ (s.scrubPageVisit faults page).recalls = s.recalls ∧
    (s.scrubPageVisit faults page).lanes = s.lanes := by
  unfold State.scrubPageVisit
  dsimp only
  split <;> (try simp) <;> (try split) <;> (try simp) <;>
    exact ⟨scrubGroups_keeps State.pending _ _ _ (by simp),
      scrubGroups_keeps State.running _ _ _ (by simp),
      scrubGroups_keeps State.straps _ _ _ (by simp),
      scrubGroups_keeps State.frame _ _ _ (by simp),
      scrubGroups_keeps State.ending _ _ _ (by simp),
      scrubGroups_keeps State.nvFault _ _ _ (by simp),
      scrubGroups_keeps State.ports _ _ _ (by simp),
      scrubGroups_keeps State.vote _ _ _ (by simp),
      scrubGroups_keeps State.insts _ _ _ (by simp),
      scrubGroups_keeps State.alloc _ _ _ (by simp),
      scrubGroups_keeps State.clocks _ _ _ (by simp),
      scrubGroups_keeps State.recalls _ _ _ (by simp),
      scrubGroups_keeps State.lanes _ _ _ (by simp)⟩

@[simp] theorem keeps_scrub (s : State) (faults : List GroupFault) :
    (s.scrub faults).pending = s.pending ∧ (s.scrub faults).running = s.running ∧
    (s.scrub faults).straps = s.straps ∧ (s.scrub faults).frame = s.frame ∧ (s.scrub faults).ending = s.ending ∧
    (s.scrub faults).nvFault = s.nvFault ∧ (s.scrub faults).ports = s.ports ∧ (s.scrub faults).vote = s.vote ∧
    (s.scrub faults).insts = s.insts ∧ (s.scrub faults).alloc = s.alloc ∧ (s.scrub faults).clocks = s.clocks ∧
    (s.scrub faults).recalls = s.recalls ∧ (s.scrub faults).lanes = s.lanes := by
  unfold State.scrub; (repeat' (first | split | dsimp only)) <;> simp

@[simp] theorem keeps_copyFrame (s : State) (faults : List GroupFault) :
    (s.copyFrame faults).pending = s.pending ∧ (s.copyFrame faults).running = s.running ∧
    (s.copyFrame faults).straps = s.straps ∧ (s.copyFrame faults).frame = s.frame ∧
    (s.copyFrame faults).ending = s.ending ∧ (s.copyFrame faults).nvFault = s.nvFault ∧
    (s.copyFrame faults).ports = s.ports ∧ (s.copyFrame faults).vote = s.vote ∧
    (s.copyFrame faults).insts = s.insts ∧ (s.copyFrame faults).alloc = s.alloc ∧
    (s.copyFrame faults).clocks = s.clocks ∧ (s.copyFrame faults).recalls = s.recalls ∧
    (s.copyFrame faults).lanes = s.lanes := by
  unfold State.copyFrame
  split
  · simp
  · dsimp only
    split
    · simp
    · split <;> (try simp only [keeps_modInteg]) <;>
        exact ⟨foldl_keeps State.pending _ (fun s x => by split <;> simp) _ _,
          foldl_keeps State.running _ (fun s x => by split <;> simp) _ _,
          foldl_keeps State.straps _ (fun s x => by split <;> simp) _ _,
          foldl_keeps State.frame _ (fun s x => by split <;> simp) _ _,
          foldl_keeps State.ending _ (fun s x => by split <;> simp) _ _,
          foldl_keeps State.nvFault _ (fun s x => by split <;> simp) _ _,
          foldl_keeps State.ports _ (fun s x => by split <;> simp) _ _,
          foldl_keeps State.vote _ (fun s x => by split <;> simp) _ _,
          foldl_keeps State.insts _ (fun s x => by split <;> simp) _ _,
          foldl_keeps State.alloc _ (fun s x => by split <;> simp) _ _,
          foldl_keeps State.clocks _ (fun s x => by split <;> simp) _ _,
          foldl_keeps State.recalls _ (fun s x => by split <;> simp) _ _,
          foldl_keeps State.lanes _ (fun s x => by split <;> simp) _ _⟩

@[simp] theorem keeps_applyUpdates (s : State) (k : Nat) (conds : List Cond) :
    (s.applyUpdates k conds).pending = s.pending ∧ (s.applyUpdates k conds).running = s.running ∧
    (s.applyUpdates k conds).straps = s.straps ∧ (s.applyUpdates k conds).frame = s.frame ∧
    (s.applyUpdates k conds).ending = s.ending ∧ (s.applyUpdates k conds).nvFault = s.nvFault ∧
    (s.applyUpdates k conds).ports = s.ports ∧ (s.applyUpdates k conds).vote = s.vote ∧
    (s.applyUpdates k conds).mem = s.mem ∧ (s.applyUpdates k conds).alloc = s.alloc ∧
    (s.applyUpdates k conds).integ = s.integ ∧ (s.applyUpdates k conds).clocks = s.clocks ∧
    (s.applyUpdates k conds).recalls = s.recalls ∧ (s.applyUpdates k conds).lanes = s.lanes ∧
    (s.applyUpdates k conds).notices = s.notices := by
  simp [State.applyUpdates]

@[simp] theorem keeps_retargetClock (s : State) (k : Nat) :
    (s.retargetClock k).pending = s.pending ∧ (s.retargetClock k).running = s.running ∧
    (s.retargetClock k).straps = s.straps ∧ (s.retargetClock k).frame = s.frame ∧
    (s.retargetClock k).ending = s.ending ∧ (s.retargetClock k).nvFault = s.nvFault ∧
    (s.retargetClock k).ports = s.ports ∧ (s.retargetClock k).vote = s.vote ∧ (s.retargetClock k).mem = s.mem ∧
    (s.retargetClock k).alloc = s.alloc ∧ (s.retargetClock k).integ = s.integ ∧
    (s.retargetClock k).clocks = s.clocks ∧ (s.retargetClock k).recalls = s.recalls ∧
    (s.retargetClock k).lanes = s.lanes ∧ (s.retargetClock k).notices = s.notices := by
  unfold State.retargetClock
  split
  · simp
  · exact ⟨foldl_keeps State.pending _ (fun s x => by simp) _ _,
      foldl_keeps State.running _ (fun s x => by simp) _ _,
      foldl_keeps State.straps _ (fun s x => by simp) _ _,
      foldl_keeps State.frame _ (fun s x => by simp) _ _,
      foldl_keeps State.ending _ (fun s x => by simp) _ _,
      foldl_keeps State.nvFault _ (fun s x => by simp) _ _,
      foldl_keeps State.ports _ (fun s x => by simp) _ _,
      foldl_keeps State.vote _ (fun s x => by simp) _ _,
      foldl_keeps State.mem _ (fun s x => by simp) _ _,
      foldl_keeps State.alloc _ (fun s x => by simp) _ _,
      foldl_keeps State.integ _ (fun s x => by simp) _ _,
      foldl_keeps State.clocks _ (fun s x => by simp) _ _,
      foldl_keeps State.recalls _ (fun s x => by simp) _ _,
      foldl_keeps State.lanes _ (fun s x => by simp) _ _,
      foldl_keeps State.notices _ (fun s x => by simp) _ _⟩

@[simp] theorem keeps_setClaim (s : State) (chan : Nat) (c : Claim) :
    (s.setClaim chan c).pending = s.pending ∧ (s.setClaim chan c).running = s.running ∧
    (s.setClaim chan c).straps = s.straps ∧ (s.setClaim chan c).frame = s.frame ∧
    (s.setClaim chan c).ending = s.ending ∧ (s.setClaim chan c).nvFault = s.nvFault ∧
    (s.setClaim chan c).ports = s.ports ∧ (s.setClaim chan c).vote = s.vote ∧ (s.setClaim chan c).insts = s.insts ∧
    (s.setClaim chan c).mem = s.mem ∧ (s.setClaim chan c).alloc = s.alloc ∧ (s.setClaim chan c).integ = s.integ ∧
    (s.setClaim chan c).clocks = s.clocks ∧ (s.setClaim chan c).recalls = s.recalls ∧
    (s.setClaim chan c).notices = s.notices := by
  simp [State.setClaim]

@[simp] theorem keeps_freeChannel (s : State) (chan : Nat) :
    (s.freeChannel chan).pending = s.pending ∧ (s.freeChannel chan).running = s.running ∧
    (s.freeChannel chan).straps = s.straps ∧ (s.freeChannel chan).frame = s.frame ∧
    (s.freeChannel chan).ending = s.ending ∧ (s.freeChannel chan).nvFault = s.nvFault ∧
    (s.freeChannel chan).ports = s.ports ∧ (s.freeChannel chan).vote = s.vote ∧
    (s.freeChannel chan).insts = s.insts ∧ (s.freeChannel chan).mem = s.mem ∧ (s.freeChannel chan).alloc = s.alloc ∧
    (s.freeChannel chan).integ = s.integ ∧ (s.freeChannel chan).clocks = s.clocks ∧
    (s.freeChannel chan).recalls = s.recalls ∧ (s.freeChannel chan).notices = s.notices := by
  unfold State.freeChannel; (repeat' (first | split | dsimp only)) <;> simp

@[simp] theorem keeps_freeChannels (s : State) :
    (s.freeChannels).pending = s.pending ∧ (s.freeChannels).running = s.running ∧
    (s.freeChannels).straps = s.straps ∧ (s.freeChannels).frame = s.frame ∧ (s.freeChannels).ending = s.ending ∧
    (s.freeChannels).nvFault = s.nvFault ∧ (s.freeChannels).ports = s.ports ∧ (s.freeChannels).vote = s.vote ∧
    (s.freeChannels).insts = s.insts ∧ (s.freeChannels).mem = s.mem ∧ (s.freeChannels).alloc = s.alloc ∧
    (s.freeChannels).integ = s.integ ∧ (s.freeChannels).clocks = s.clocks ∧ (s.freeChannels).recalls = s.recalls ∧
    (s.freeChannels).notices = s.notices := by
  unfold State.freeChannels
  exact ⟨foldl_keeps State.pending _ (fun s x => by simp) _ _,
    foldl_keeps State.running _ (fun s x => by simp) _ _,
    foldl_keeps State.straps _ (fun s x => by simp) _ _,
    foldl_keeps State.frame _ (fun s x => by simp) _ _,
    foldl_keeps State.ending _ (fun s x => by simp) _ _,
    foldl_keeps State.nvFault _ (fun s x => by simp) _ _,
    foldl_keeps State.ports _ (fun s x => by simp) _ _,
    foldl_keeps State.vote _ (fun s x => by simp) _ _,
    foldl_keeps State.insts _ (fun s x => by simp) _ _,
    foldl_keeps State.mem _ (fun s x => by simp) _ _,
    foldl_keeps State.alloc _ (fun s x => by simp) _ _,
    foldl_keeps State.integ _ (fun s x => by simp) _ _,
    foldl_keeps State.clocks _ (fun s x => by simp) _ _,
    foldl_keeps State.recalls _ (fun s x => by simp) _ _,
    foldl_keeps State.notices _ (fun s x => by simp) _ _⟩

@[simp] theorem keeps_modOwned (s : State) (p : Port) (f : Inst → Inst) :
    (s.modOwned p f).pending = s.pending ∧ (s.modOwned p f).running = s.running ∧
    (s.modOwned p f).straps = s.straps ∧ (s.modOwned p f).frame = s.frame ∧ (s.modOwned p f).ending = s.ending ∧
    (s.modOwned p f).nvFault = s.nvFault ∧ (s.modOwned p f).ports = s.ports ∧ (s.modOwned p f).vote = s.vote ∧
    (s.modOwned p f).mem = s.mem ∧ (s.modOwned p f).alloc = s.alloc ∧ (s.modOwned p f).integ = s.integ ∧
    (s.modOwned p f).clocks = s.clocks ∧ (s.modOwned p f).recalls = s.recalls ∧ (s.modOwned p f).lanes = s.lanes ∧
    (s.modOwned p f).notices = s.notices := by
  unfold State.modOwned
  exact ⟨foldl_keeps State.pending _ (fun s x => by simp) _ _,
    foldl_keeps State.running _ (fun s x => by simp) _ _,
    foldl_keeps State.straps _ (fun s x => by simp) _ _,
    foldl_keeps State.frame _ (fun s x => by simp) _ _,
    foldl_keeps State.ending _ (fun s x => by simp) _ _,
    foldl_keeps State.nvFault _ (fun s x => by simp) _ _,
    foldl_keeps State.ports _ (fun s x => by simp) _ _,
    foldl_keeps State.vote _ (fun s x => by simp) _ _,
    foldl_keeps State.mem _ (fun s x => by simp) _ _,
    foldl_keeps State.alloc _ (fun s x => by simp) _ _,
    foldl_keeps State.integ _ (fun s x => by simp) _ _,
    foldl_keeps State.clocks _ (fun s x => by simp) _ _,
    foldl_keeps State.recalls _ (fun s x => by simp) _ _,
    foldl_keeps State.lanes _ (fun s x => by simp) _ _,
    foldl_keeps State.notices _ (fun s x => by simp) _ _⟩

@[simp] theorem keeps_releaseChannel (s : State) (p : Port) (chan : Nat) :
    (s.releaseChannel p chan).pending = s.pending ∧ (s.releaseChannel p chan).running = s.running ∧
    (s.releaseChannel p chan).straps = s.straps ∧ (s.releaseChannel p chan).frame = s.frame ∧
    (s.releaseChannel p chan).ending = s.ending ∧ (s.releaseChannel p chan).nvFault = s.nvFault ∧
    (s.releaseChannel p chan).ports = s.ports ∧ (s.releaseChannel p chan).vote = s.vote ∧
    (s.releaseChannel p chan).mem = s.mem ∧ (s.releaseChannel p chan).alloc = s.alloc ∧
    (s.releaseChannel p chan).integ = s.integ ∧ (s.releaseChannel p chan).clocks = s.clocks ∧
    (s.releaseChannel p chan).recalls = s.recalls ∧ (s.releaseChannel p chan).notices = s.notices := by
  unfold State.releaseChannel; (repeat' (first | split | dsimp only)) <;> simp

@[simp] theorem keeps_sendDeparted (s : State) (k pos : Nat) :
    (s.sendDeparted k pos).pending = s.pending ∧ (s.sendDeparted k pos).running = s.running ∧
    (s.sendDeparted k pos).straps = s.straps ∧ (s.sendDeparted k pos).frame = s.frame ∧
    (s.sendDeparted k pos).ending = s.ending ∧ (s.sendDeparted k pos).nvFault = s.nvFault ∧
    (s.sendDeparted k pos).ports = s.ports ∧ (s.sendDeparted k pos).vote = s.vote ∧
    (s.sendDeparted k pos).mem = s.mem ∧ (s.sendDeparted k pos).alloc = s.alloc ∧
    (s.sendDeparted k pos).integ = s.integ ∧ (s.sendDeparted k pos).clocks = s.clocks ∧
    (s.sendDeparted k pos).recalls = s.recalls ∧ (s.sendDeparted k pos).lanes = s.lanes ∧
    (s.sendDeparted k pos).notices = s.notices := by
  simp [State.sendDeparted]

@[simp] theorem keeps_routeDeparted (s : State) (k : Nat) (side : Side) (pos : Nat) :
    (s.routeDeparted k side pos).pending = s.pending ∧ (s.routeDeparted k side pos).running = s.running ∧
    (s.routeDeparted k side pos).straps = s.straps ∧ (s.routeDeparted k side pos).frame = s.frame ∧
    (s.routeDeparted k side pos).ending = s.ending ∧ (s.routeDeparted k side pos).nvFault = s.nvFault ∧
    (s.routeDeparted k side pos).ports = s.ports ∧ (s.routeDeparted k side pos).vote = s.vote ∧
    (s.routeDeparted k side pos).mem = s.mem ∧ (s.routeDeparted k side pos).alloc = s.alloc ∧
    (s.routeDeparted k side pos).integ = s.integ ∧ (s.routeDeparted k side pos).clocks = s.clocks ∧
    (s.routeDeparted k side pos).recalls = s.recalls ∧ (s.routeDeparted k side pos).notices = s.notices := by
  unfold State.routeDeparted; (repeat' (first | split | dsimp only)) <;> simp

@[simp] theorem keeps_loseLane (s : State) (k : Nat) :
    (s.loseLane k).pending = s.pending ∧ (s.loseLane k).running = s.running ∧ (s.loseLane k).straps = s.straps ∧
    (s.loseLane k).frame = s.frame ∧ (s.loseLane k).ending = s.ending ∧ (s.loseLane k).nvFault = s.nvFault ∧
    (s.loseLane k).ports = s.ports ∧ (s.loseLane k).vote = s.vote ∧ (s.loseLane k).insts = s.insts ∧
    (s.loseLane k).mem = s.mem ∧ (s.loseLane k).alloc = s.alloc ∧ (s.loseLane k).integ = s.integ ∧
    (s.loseLane k).clocks = s.clocks ∧ (s.loseLane k).recalls = s.recalls := by
  unfold State.loseLane; (repeat' (first | split | dsimp only)) <;> simp

@[simp] theorem keeps_syncLane (s : State) (k : Nat) :
    (s.syncLane k).pending = s.pending ∧ (s.syncLane k).running = s.running ∧ (s.syncLane k).straps = s.straps ∧
    (s.syncLane k).frame = s.frame ∧ (s.syncLane k).ending = s.ending ∧ (s.syncLane k).nvFault = s.nvFault ∧
    (s.syncLane k).ports = s.ports ∧ (s.syncLane k).vote = s.vote ∧ (s.syncLane k).insts = s.insts ∧
    (s.syncLane k).mem = s.mem ∧ (s.syncLane k).alloc = s.alloc ∧ (s.syncLane k).integ = s.integ ∧
    (s.syncLane k).clocks = s.clocks ∧ (s.syncLane k).recalls = s.recalls := by
  unfold State.syncLane; (repeat' (first | split | dsimp only)) <;> simp

@[simp] theorem keeps_loseClock (s : State) :
    (s.loseClock).pending = s.pending ∧ (s.loseClock).running = s.running ∧ (s.loseClock).straps = s.straps ∧
    (s.loseClock).frame = s.frame ∧ (s.loseClock).ending = s.ending ∧ (s.loseClock).nvFault = s.nvFault ∧
    (s.loseClock).ports = s.ports ∧ (s.loseClock).vote = s.vote ∧ (s.loseClock).insts = s.insts ∧
    (s.loseClock).mem = s.mem ∧ (s.loseClock).alloc = s.alloc ∧ (s.loseClock).integ = s.integ ∧
    (s.loseClock).clocks = s.clocks ∧ (s.loseClock).recalls = s.recalls := by
  unfold State.loseClock; (repeat' (first | split | dsimp only)) <;> simp

@[simp] theorem keeps_lockClock (s : State) :
    (s.lockClock).pending = s.pending ∧ (s.lockClock).running = s.running ∧ (s.lockClock).straps = s.straps ∧
    (s.lockClock).frame = s.frame ∧ (s.lockClock).ending = s.ending ∧ (s.lockClock).nvFault = s.nvFault ∧
    (s.lockClock).ports = s.ports ∧ (s.lockClock).vote = s.vote ∧ (s.lockClock).insts = s.insts ∧
    (s.lockClock).mem = s.mem ∧ (s.lockClock).alloc = s.alloc ∧ (s.lockClock).integ = s.integ ∧
    (s.lockClock).clocks = s.clocks ∧ (s.lockClock).recalls = s.recalls := by
  unfold State.lockClock; (repeat' (first | split | dsimp only)) <;> simp

@[simp] theorem keeps_markSlot (s : State) (k : Nat) :
    (s.markSlot k).pending = s.pending ∧ (s.markSlot k).running = s.running ∧ (s.markSlot k).straps = s.straps ∧
    (s.markSlot k).frame = s.frame ∧ (s.markSlot k).ending = s.ending ∧ (s.markSlot k).nvFault = s.nvFault ∧
    (s.markSlot k).ports = s.ports ∧ (s.markSlot k).vote = s.vote ∧ (s.markSlot k).mem = s.mem ∧ (s.markSlot
    k).alloc = s.alloc ∧ (s.markSlot k).integ = s.integ ∧ (s.markSlot k).clocks = s.clocks ∧ (s.markSlot
    k).recalls = s.recalls ∧ (s.markSlot k).lanes = s.lanes ∧ (s.markSlot k).notices = s.notices := by
  simp [State.markSlot]

@[simp] theorem keeps_markPrimed (s : State) :
    (s.markPrimed).pending = s.pending ∧ (s.markPrimed).running = s.running ∧ (s.markPrimed).straps = s.straps ∧
    (s.markPrimed).frame = s.frame ∧ (s.markPrimed).ending = s.ending ∧ (s.markPrimed).nvFault = s.nvFault ∧
    (s.markPrimed).ports = s.ports ∧ (s.markPrimed).vote = s.vote ∧ (s.markPrimed).mem = s.mem ∧
    (s.markPrimed).alloc = s.alloc ∧ (s.markPrimed).integ = s.integ ∧ (s.markPrimed).clocks = s.clocks ∧
    (s.markPrimed).recalls = s.recalls ∧ (s.markPrimed).lanes = s.lanes ∧ (s.markPrimed).notices = s.notices := by
  unfold State.markPrimed
  exact ⟨foldl_keeps State.pending _ (fun s x => by simp) _ _,
    foldl_keeps State.running _ (fun s x => by simp) _ _,
    foldl_keeps State.straps _ (fun s x => by simp) _ _,
    foldl_keeps State.frame _ (fun s x => by simp) _ _,
    foldl_keeps State.ending _ (fun s x => by simp) _ _,
    foldl_keeps State.nvFault _ (fun s x => by simp) _ _,
    foldl_keeps State.ports _ (fun s x => by simp) _ _,
    foldl_keeps State.vote _ (fun s x => by simp) _ _,
    foldl_keeps State.mem _ (fun s x => by simp) _ _,
    foldl_keeps State.alloc _ (fun s x => by simp) _ _,
    foldl_keeps State.integ _ (fun s x => by simp) _ _,
    foldl_keeps State.clocks _ (fun s x => by simp) _ _,
    foldl_keeps State.recalls _ (fun s x => by simp) _ _,
    foldl_keeps State.lanes _ (fun s x => by simp) _ _,
    foldl_keeps State.notices _ (fun s x => by simp) _ _⟩

@[simp] theorem keeps_pageClear (s : State) (n : Nat) :
    (s.pageClear n).pending = s.pending ∧ (s.pageClear n).running = s.running ∧ (s.pageClear n).straps = s.straps ∧
    (s.pageClear n).frame = s.frame ∧ (s.pageClear n).ending = s.ending ∧ (s.pageClear n).nvFault = s.nvFault ∧
    (s.pageClear n).ports = s.ports ∧ (s.pageClear n).vote = s.vote ∧ (s.pageClear n).alloc = s.alloc ∧
    (s.pageClear n).integ = s.integ ∧ (s.pageClear n).clocks = s.clocks ∧ (s.pageClear n).recalls = s.recalls ∧
    (s.pageClear n).lanes = s.lanes ∧ (s.pageClear n).notices = s.notices := by
  simp [State.pageClear]

@[simp] theorem keeps_setUp (s : State) (k : Nat) (base : Inst) :
    (s.setUp k base).pending = s.pending ∧ (s.setUp k base).running = s.running ∧
    (s.setUp k base).straps = s.straps ∧ (s.setUp k base).frame = s.frame ∧ (s.setUp k base).ending = s.ending ∧
    (s.setUp k base).nvFault = s.nvFault ∧ (s.setUp k base).ports = s.ports ∧ (s.setUp k base).vote = s.vote ∧
    (s.setUp k base).integ = s.integ ∧ (s.setUp k base).clocks = s.clocks ∧ (s.setUp k base).recalls = s.recalls ∧
    (s.setUp k base).lanes = s.lanes ∧ (s.setUp k base).notices = s.notices := by
  unfold State.setUp; (repeat' (first | split | dsimp only)) <;> simp

/-- What `setUp` does where no step of a frame's end is acting (R7, R116). -/
theorem setUp_of_not_ending {s : State} (h : s.ending = false) (slot : Nat) (base : Inst) :
    s.setUp slot base =
      let g := DelayMem.giveLines slot base.choice.mirror 0 (lineCapacities s.rate base.choice) s.mem
      { s with mem := { g.1 with priming := g.1.priming ++ g.2.2.map fun p => (p, slot) },
               alloc := s.alloc.charge base.owner (pagesNeeded s.rate base.choice) (unitsNeeded base.choice) }.setInst slot
        (primedInst s.rate base g.2.1 s.frame) := by
  simp only [State.setUp, State.admissionFrame, h, Bool.false_and, Bool.false_eq_true, false_and, if_false]
  rfl

@[simp] theorem keeps_countLink (s : State) (k : Nat) (p : Port) (f : Nat → Nat) :
    (s.countLink k p f).pending = s.pending ∧ (s.countLink k p f).running = s.running ∧
    (s.countLink k p f).straps = s.straps ∧ (s.countLink k p f).frame = s.frame ∧
    (s.countLink k p f).ending = s.ending ∧ (s.countLink k p f).nvFault = s.nvFault ∧
    (s.countLink k p f).ports = s.ports ∧ (s.countLink k p f).vote = s.vote ∧ (s.countLink k p f).insts = s.insts ∧
    (s.countLink k p f).mem = s.mem ∧ (s.countLink k p f).alloc = s.alloc ∧ (s.countLink k p f).integ = s.integ ∧
    (s.countLink k p f).recalls = s.recalls ∧ (s.countLink k p f).lanes = s.lanes ∧
    (s.countLink k p f).notices = s.notices := by
  simp [State.countLink]

@[simp] theorem keeps_linkTo (s : State) (k : Nat) (i : Inst) (clock : Nat) :
    (s.linkTo k i clock).pending = s.pending ∧ (s.linkTo k i clock).running = s.running ∧
    (s.linkTo k i clock).straps = s.straps ∧ (s.linkTo k i clock).frame = s.frame ∧
    (s.linkTo k i clock).ending = s.ending ∧ (s.linkTo k i clock).nvFault = s.nvFault ∧
    (s.linkTo k i clock).ports = s.ports ∧ (s.linkTo k i clock).vote = s.vote ∧ (s.linkTo k i clock).mem = s.mem ∧
    (s.linkTo k i clock).alloc = s.alloc ∧ (s.linkTo k i clock).integ = s.integ ∧
    (s.linkTo k i clock).recalls = s.recalls ∧ (s.linkTo k i clock).lanes = s.lanes ∧
    (s.linkTo k i clock).notices = s.notices := by
  unfold State.linkTo; (repeat' (first | split | dsimp only)) <;> simp

@[simp] theorem keeps_unlink (s : State) (k : Nat) (i : Inst) :
    (s.unlink k i).pending = s.pending ∧ (s.unlink k i).running = s.running ∧ (s.unlink k i).straps = s.straps ∧
    (s.unlink k i).frame = s.frame ∧ (s.unlink k i).ending = s.ending ∧ (s.unlink k i).nvFault = s.nvFault ∧
    (s.unlink k i).ports = s.ports ∧ (s.unlink k i).vote = s.vote ∧ (s.unlink k i).mem = s.mem ∧
    (s.unlink k i).alloc = s.alloc ∧ (s.unlink k i).integ = s.integ ∧ (s.unlink k i).recalls = s.recalls ∧
    (s.unlink k i).lanes = s.lanes ∧ (s.unlink k i).notices = s.notices := by
  unfold State.unlink; (repeat' (first | split | dsimp only)) <;> simp

@[simp] theorem keeps_dropTags (s : State) (p : Port) (number : Nat) :
    (s.dropTags p number).pending = s.pending ∧ (s.dropTags p number).running = s.running ∧
    (s.dropTags p number).straps = s.straps ∧ (s.dropTags p number).frame = s.frame ∧
    (s.dropTags p number).ending = s.ending ∧ (s.dropTags p number).nvFault = s.nvFault ∧
    (s.dropTags p number).ports = s.ports ∧ (s.dropTags p number).vote = s.vote ∧ (s.dropTags p number).mem = s.mem ∧
    (s.dropTags p number).alloc = s.alloc ∧ (s.dropTags p number).integ = s.integ ∧
    (s.dropTags p number).clocks = s.clocks ∧ (s.dropTags p number).recalls = s.recalls ∧
    (s.dropTags p number).lanes = s.lanes ∧ (s.dropTags p number).notices = s.notices := by
  unfold State.dropTags
  exact ⟨foldl_keeps State.pending _ (fun s x => by simp) _ _,
    foldl_keeps State.running _ (fun s x => by simp) _ _,
    foldl_keeps State.straps _ (fun s x => by simp) _ _,
    foldl_keeps State.frame _ (fun s x => by simp) _ _,
    foldl_keeps State.ending _ (fun s x => by simp) _ _,
    foldl_keeps State.nvFault _ (fun s x => by simp) _ _,
    foldl_keeps State.ports _ (fun s x => by simp) _ _,
    foldl_keeps State.vote _ (fun s x => by simp) _ _,
    foldl_keeps State.mem _ (fun s x => by simp) _ _,
    foldl_keeps State.alloc _ (fun s x => by simp) _ _,
    foldl_keeps State.integ _ (fun s x => by simp) _ _,
    foldl_keeps State.clocks _ (fun s x => by simp) _ _,
    foldl_keeps State.recalls _ (fun s x => by simp) _ _,
    foldl_keeps State.lanes _ (fun s x => by simp) _ _,
    foldl_keeps State.notices _ (fun s x => by simp) _ _⟩

@[simp] theorem keeps_settleTest (s : State) (p : Port) :
    (s.settleTest p).pending = s.pending ∧ (s.settleTest p).running = s.running ∧
    (s.settleTest p).straps = s.straps ∧ (s.settleTest p).frame = s.frame ∧ (s.settleTest p).ending = s.ending ∧
    (s.settleTest p).nvFault = s.nvFault ∧ (s.settleTest p).ports = s.ports ∧ (s.settleTest p).vote = s.vote ∧
    (s.settleTest p).mem = s.mem ∧ (s.settleTest p).alloc = s.alloc ∧ (s.settleTest p).integ = s.integ ∧
    (s.settleTest p).clocks = s.clocks ∧ (s.settleTest p).lanes = s.lanes := by
  unfold State.settleTest; (repeat' (first | split | dsimp only)) <;> simp

@[simp] theorem keeps_setResult (s : State) (p : Port) (item : Nat) (x : ItemResult) :
    (s.setResult p item x).pending = s.pending ∧ (s.setResult p item x).running = s.running ∧
    (s.setResult p item x).straps = s.straps ∧ (s.setResult p item x).frame = s.frame ∧
    (s.setResult p item x).ending = s.ending ∧ (s.setResult p item x).nvFault = s.nvFault ∧
    (s.setResult p item x).ports = s.ports ∧ (s.setResult p item x).vote = s.vote ∧
    (s.setResult p item x).insts = s.insts ∧ (s.setResult p item x).mem = s.mem ∧
    (s.setResult p item x).alloc = s.alloc ∧ (s.setResult p item x).integ = s.integ ∧
    (s.setResult p item x).clocks = s.clocks ∧ (s.setResult p item x).lanes = s.lanes ∧
    (s.setResult p item x).notices = s.notices := by
  simp [State.setResult]

@[simp] theorem keeps_applyKept (s : State) (slot : Nat) (k : Kept) :
    ((s.applyKept slot k).1).pending = s.pending ∧ ((s.applyKept slot k).1).running = s.running ∧
    ((s.applyKept slot k).1).straps = s.straps ∧ ((s.applyKept slot k).1).frame = s.frame ∧
    ((s.applyKept slot k).1).ending = s.ending ∧ ((s.applyKept slot k).1).nvFault = s.nvFault ∧
    ((s.applyKept slot k).1).ports = s.ports ∧ ((s.applyKept slot k).1).vote = s.vote ∧
    ((s.applyKept slot k).1).mem = s.mem ∧ ((s.applyKept slot k).1).alloc = s.alloc ∧
    ((s.applyKept slot k).1).integ = s.integ ∧ ((s.applyKept slot k).1).recalls = s.recalls ∧
    ((s.applyKept slot k).1).lanes = s.lanes ∧ ((s.applyKept slot k).1).notices = s.notices := by
  unfold State.applyKept; (repeat' (first | split | dsimp only)) <;> simp

@[simp] theorem keeps_setUpItem (s : State) (slot : Nat) (base : Inst) (k : Kept) :
    (s.setUpItem slot base k).pending = s.pending ∧ (s.setUpItem slot base k).running = s.running ∧
    (s.setUpItem slot base k).straps = s.straps ∧ (s.setUpItem slot base k).frame = s.frame ∧
    (s.setUpItem slot base k).ending = s.ending ∧ (s.setUpItem slot base k).nvFault = s.nvFault ∧
    (s.setUpItem slot base k).ports = s.ports ∧ (s.setUpItem slot base k).vote = s.vote ∧
    (s.setUpItem slot base k).integ = s.integ ∧ (s.setUpItem slot base k).lanes = s.lanes ∧
    (s.setUpItem slot base k).notices = s.notices := by
  simp [State.setUpItem]

@[simp] theorem keeps_offerSlot (s : State) (slot : Nat) :
    (s.offerSlot slot).pending = s.pending ∧ (s.offerSlot slot).running = s.running ∧
    (s.offerSlot slot).straps = s.straps ∧ (s.offerSlot slot).frame = s.frame ∧
    (s.offerSlot slot).ending = s.ending ∧ (s.offerSlot slot).nvFault = s.nvFault ∧
    (s.offerSlot slot).ports = s.ports ∧ (s.offerSlot slot).vote = s.vote ∧ (s.offerSlot slot).integ = s.integ ∧
    (s.offerSlot slot).lanes = s.lanes := by
  unfold State.offerSlot; (repeat' (first | split | dsimp only)) <;> simp

@[simp] theorem keeps_offerResources (s : State) :
    (s.offerResources).pending = s.pending ∧ (s.offerResources).running = s.running ∧
    (s.offerResources).straps = s.straps ∧ (s.offerResources).frame = s.frame ∧
    (s.offerResources).ending = s.ending ∧ (s.offerResources).nvFault = s.nvFault ∧
    (s.offerResources).ports = s.ports ∧ (s.offerResources).vote = s.vote ∧ (s.offerResources).integ = s.integ ∧
    (s.offerResources).lanes = s.lanes := by
  unfold State.offerResources
  exact ⟨foldl_keeps State.pending _ (fun s x => by simp) _ _,
    foldl_keeps State.running _ (fun s x => by simp) _ _,
    foldl_keeps State.straps _ (fun s x => by simp) _ _,
    foldl_keeps State.frame _ (fun s x => by simp) _ _,
    foldl_keeps State.ending _ (fun s x => by simp) _ _,
    foldl_keeps State.nvFault _ (fun s x => by simp) _ _,
    foldl_keeps State.ports _ (fun s x => by simp) _ _,
    foldl_keeps State.vote _ (fun s x => by simp) _ _,
    foldl_keeps State.integ _ (fun s x => by simp) _ _,
    foldl_keeps State.lanes _ (fun s x => by simp) _ _⟩

@[simp] theorem keeps_freeWaiting (s : State) (slot : Nat) :
    (s.freeWaiting slot).pending = s.pending ∧ (s.freeWaiting slot).running = s.running ∧
    (s.freeWaiting slot).straps = s.straps ∧ (s.freeWaiting slot).frame = s.frame ∧
    (s.freeWaiting slot).ending = s.ending ∧ (s.freeWaiting slot).nvFault = s.nvFault ∧
    (s.freeWaiting slot).ports = s.ports ∧ (s.freeWaiting slot).vote = s.vote ∧ (s.freeWaiting slot).mem = s.mem ∧
    (s.freeWaiting slot).integ = s.integ ∧ (s.freeWaiting slot).clocks = s.clocks ∧
    (s.freeWaiting slot).recalls = s.recalls ∧ (s.freeWaiting slot).lanes = s.lanes ∧
    (s.freeWaiting slot).notices = s.notices := by
  simp [State.freeWaiting]

/-- Pages taken back one after the other. -/
@[simp] theorem keeps_takeBack (l : List Nat) (s : State) :
    (l.foldl State.takeBackPage s).pending = s.pending ∧
    (l.foldl State.takeBackPage s).running = s.running ∧
    (l.foldl State.takeBackPage s).straps = s.straps ∧
    (l.foldl State.takeBackPage s).frame = s.frame ∧
    (l.foldl State.takeBackPage s).ending = s.ending ∧
    (l.foldl State.takeBackPage s).nvFault = s.nvFault ∧
    (l.foldl State.takeBackPage s).ports = s.ports ∧
    (l.foldl State.takeBackPage s).vote = s.vote ∧
    (l.foldl State.takeBackPage s).insts = s.insts ∧
    (l.foldl State.takeBackPage s).alloc = s.alloc ∧
    (l.foldl State.takeBackPage s).clocks = s.clocks ∧
    (l.foldl State.takeBackPage s).recalls = s.recalls ∧
    (l.foldl State.takeBackPage s).lanes = s.lanes :=
  ⟨foldl_keeps State.pending _ (fun s x => by simp) _ _,
    foldl_keeps State.running _ (fun s x => by simp) _ _,
    foldl_keeps State.straps _ (fun s x => by simp) _ _,
    foldl_keeps State.frame _ (fun s x => by simp) _ _,
    foldl_keeps State.ending _ (fun s x => by simp) _ _,
    foldl_keeps State.nvFault _ (fun s x => by simp) _ _,
    foldl_keeps State.ports _ (fun s x => by simp) _ _,
    foldl_keeps State.vote _ (fun s x => by simp) _ _,
    foldl_keeps State.insts _ (fun s x => by simp) _ _,
    foldl_keeps State.alloc _ (fun s x => by simp) _ _,
    foldl_keeps State.clocks _ (fun s x => by simp) _ _,
    foldl_keeps State.recalls _ (fun s x => by simp) _ _,
    foldl_keeps State.lanes _ (fun s x => by simp) _ _⟩

@[simp] theorem keeps_freeInst (s : State) (slot : Nat) (i : Inst) (why : Option FreeReason) :
    (s.freeInst slot i why).pending = s.pending ∧ (s.freeInst slot i why).running = s.running ∧
    (s.freeInst slot i why).straps = s.straps ∧ (s.freeInst slot i why).frame = s.frame ∧
    (s.freeInst slot i why).ending = s.ending ∧ (s.freeInst slot i why).nvFault = s.nvFault ∧
    (s.freeInst slot i why).ports = s.ports ∧ (s.freeInst slot i why).vote = s.vote := by
  unfold State.freeInst; (repeat' (first | split | dsimp only)) <;> simp

@[simp] theorem keeps_cancelOffer (s : State) (slot : Nat) (i : Inst) (c : Option Port) :
    (s.cancelOffer slot i c).pending = s.pending ∧ (s.cancelOffer slot i c).running = s.running ∧
    (s.cancelOffer slot i c).straps = s.straps ∧ (s.cancelOffer slot i c).frame = s.frame ∧
    (s.cancelOffer slot i c).ending = s.ending ∧ (s.cancelOffer slot i c).nvFault = s.nvFault ∧
    (s.cancelOffer slot i c).ports = s.ports ∧ (s.cancelOffer slot i c).vote = s.vote ∧
    (s.cancelOffer slot i c).mem = s.mem ∧ (s.cancelOffer slot i c).alloc = s.alloc ∧
    (s.cancelOffer slot i c).integ = s.integ ∧ (s.cancelOffer slot i c).clocks = s.clocks ∧
    (s.cancelOffer slot i c).recalls = s.recalls ∧ (s.cancelOffer slot i c).lanes = s.lanes := by
  unfold State.cancelOffer; (repeat' (first | split | dsimp only)) <;> simp

@[simp] theorem keeps_cancelOffers (s : State) (p : Port) (c : Option Port) :
    (s.cancelOffers p c).pending = s.pending ∧ (s.cancelOffers p c).running = s.running ∧
    (s.cancelOffers p c).straps = s.straps ∧ (s.cancelOffers p c).frame = s.frame ∧
    (s.cancelOffers p c).ending = s.ending ∧ (s.cancelOffers p c).nvFault = s.nvFault ∧
    (s.cancelOffers p c).ports = s.ports ∧ (s.cancelOffers p c).vote = s.vote ∧ (s.cancelOffers p c).mem = s.mem ∧
    (s.cancelOffers p c).alloc = s.alloc ∧ (s.cancelOffers p c).integ = s.integ ∧
    (s.cancelOffers p c).clocks = s.clocks ∧ (s.cancelOffers p c).recalls = s.recalls ∧
    (s.cancelOffers p c).lanes = s.lanes := by
  unfold State.cancelOffers
  exact ⟨foldl_keeps State.pending _ (fun s x => by (repeat' split) <;> simp) _ _,
    foldl_keeps State.running _ (fun s x => by (repeat' split) <;> simp) _ _,
    foldl_keeps State.straps _ (fun s x => by (repeat' split) <;> simp) _ _,
    foldl_keeps State.frame _ (fun s x => by (repeat' split) <;> simp) _ _,
    foldl_keeps State.ending _ (fun s x => by (repeat' split) <;> simp) _ _,
    foldl_keeps State.nvFault _ (fun s x => by (repeat' split) <;> simp) _ _,
    foldl_keeps State.ports _ (fun s x => by (repeat' split) <;> simp) _ _,
    foldl_keeps State.vote _ (fun s x => by (repeat' split) <;> simp) _ _,
    foldl_keeps State.mem _ (fun s x => by (repeat' split) <;> simp) _ _,
    foldl_keeps State.alloc _ (fun s x => by (repeat' split) <;> simp) _ _,
    foldl_keeps State.integ _ (fun s x => by (repeat' split) <;> simp) _ _,
    foldl_keeps State.clocks _ (fun s x => by (repeat' split) <;> simp) _ _,
    foldl_keeps State.recalls _ (fun s x => by (repeat' split) <;> simp) _ _,
    foldl_keeps State.lanes _ (fun s x => by (repeat' split) <;> simp) _ _⟩

@[simp] theorem keeps_enterDraining (s : State) (slot : Nat) (i : Inst) (n : Nat) :
    (s.enterDraining slot i n).pending = s.pending ∧ (s.enterDraining slot i n).running = s.running ∧
    (s.enterDraining slot i n).straps = s.straps ∧ (s.enterDraining slot i n).frame = s.frame ∧
    (s.enterDraining slot i n).ending = s.ending ∧ (s.enterDraining slot i n).nvFault = s.nvFault ∧
    (s.enterDraining slot i n).ports = s.ports ∧ (s.enterDraining slot i n).vote = s.vote ∧
    (s.enterDraining slot i n).mem = s.mem ∧ (s.enterDraining slot i n).alloc = s.alloc ∧
    (s.enterDraining slot i n).integ = s.integ ∧ (s.enterDraining slot i n).clocks = s.clocks ∧
    (s.enterDraining slot i n).recalls = s.recalls ∧ (s.enterDraining slot i n).lanes = s.lanes := by
  simp [State.enterDraining]

@[simp] theorem keeps_enterFading (s : State) (slot : Nat) (i : Inst) (n : Nat) (b : Bool) (c : Option Port) :
    (s.enterFading slot i n b c).pending = s.pending ∧ (s.enterFading slot i n b c).running = s.running ∧
    (s.enterFading slot i n b c).straps = s.straps ∧ (s.enterFading slot i n b c).frame = s.frame ∧
    (s.enterFading slot i n b c).ending = s.ending ∧ (s.enterFading slot i n b c).nvFault = s.nvFault ∧
    (s.enterFading slot i n b c).ports = s.ports ∧ (s.enterFading slot i n b c).vote = s.vote ∧
    (s.enterFading slot i n b c).mem = s.mem ∧ (s.enterFading slot i n b c).alloc = s.alloc ∧
    (s.enterFading slot i n b c).integ = s.integ ∧ (s.enterFading slot i n b c).clocks = s.clocks ∧
    (s.enterFading slot i n b c).recalls = s.recalls ∧ (s.enterFading slot i n b c).lanes = s.lanes := by
  simp [State.enterFading]

@[simp] theorem keeps_release (s : State) (slot : Nat) (i : Inst) (mode : RelMode) (n : Nat) :
    (s.release slot i mode n).pending = s.pending ∧ (s.release slot i mode n).running = s.running ∧
    (s.release slot i mode n).straps = s.straps ∧ (s.release slot i mode n).frame = s.frame ∧
    (s.release slot i mode n).ending = s.ending ∧ (s.release slot i mode n).nvFault = s.nvFault ∧
    (s.release slot i mode n).ports = s.ports ∧ (s.release slot i mode n).vote = s.vote := by
  unfold State.release; (repeat' (first | split | dsimp only)) <;> simp

@[simp] theorem keeps_instancePrimed (s : State) (slot : Nat) :
    (s.instancePrimed slot).pending = s.pending ∧ (s.instancePrimed slot).running = s.running ∧
    (s.instancePrimed slot).straps = s.straps ∧ (s.instancePrimed slot).frame = s.frame ∧
    (s.instancePrimed slot).ending = s.ending ∧ (s.instancePrimed slot).nvFault = s.nvFault ∧
    (s.instancePrimed slot).ports = s.ports ∧ (s.instancePrimed slot).vote = s.vote ∧
    (s.instancePrimed slot).mem = s.mem ∧ (s.instancePrimed slot).alloc = s.alloc ∧
    (s.instancePrimed slot).integ = s.integ ∧ (s.instancePrimed slot).clocks = s.clocks ∧
    (s.instancePrimed slot).lanes = s.lanes := by
  unfold State.instancePrimed; (repeat' (first | split | dsimp only)) <;> simp

@[simp] theorem keeps_drainQuiet (s : State) (slot : Nat) :
    (s.drainQuiet slot).pending = s.pending ∧ (s.drainQuiet slot).running = s.running ∧
    (s.drainQuiet slot).straps = s.straps ∧ (s.drainQuiet slot).frame = s.frame ∧
    (s.drainQuiet slot).ending = s.ending ∧ (s.drainQuiet slot).nvFault = s.nvFault ∧
    (s.drainQuiet slot).ports = s.ports ∧ (s.drainQuiet slot).vote = s.vote := by
  unfold State.drainQuiet; (repeat' (first | split | dsimp only)) <;> simp

@[simp] theorem keeps_drainLimit (s : State) (slot : Nat) :
    (s.drainLimit slot).pending = s.pending ∧ (s.drainLimit slot).running = s.running ∧
    (s.drainLimit slot).straps = s.straps ∧ (s.drainLimit slot).frame = s.frame ∧
    (s.drainLimit slot).ending = s.ending ∧ (s.drainLimit slot).nvFault = s.nvFault ∧
    (s.drainLimit slot).ports = s.ports ∧ (s.drainLimit slot).vote = s.vote ∧ (s.drainLimit slot).mem = s.mem ∧
    (s.drainLimit slot).alloc = s.alloc ∧ (s.drainLimit slot).integ = s.integ ∧
    (s.drainLimit slot).clocks = s.clocks ∧ (s.drainLimit slot).recalls = s.recalls ∧
    (s.drainLimit slot).lanes = s.lanes := by
  unfold State.drainLimit; (repeat' (first | split | dsimp only)) <;> simp

@[simp] theorem keeps_fadeComplete (s : State) (slot : Nat) :
    (s.fadeComplete slot).pending = s.pending ∧ (s.fadeComplete slot).running = s.running ∧
    (s.fadeComplete slot).straps = s.straps ∧ (s.fadeComplete slot).frame = s.frame ∧
    (s.fadeComplete slot).ending = s.ending ∧ (s.fadeComplete slot).nvFault = s.nvFault ∧
    (s.fadeComplete slot).ports = s.ports ∧ (s.fadeComplete slot).vote = s.vote := by
  unfold State.fadeComplete; (repeat' (first | split | dsimp only)) <;> simp

@[simp] theorem keeps_offerExpired (s : State) (slot : Nat) :
    (s.offerExpired slot).pending = s.pending ∧ (s.offerExpired slot).running = s.running ∧
    (s.offerExpired slot).straps = s.straps ∧ (s.offerExpired slot).frame = s.frame ∧
    (s.offerExpired slot).ending = s.ending ∧ (s.offerExpired slot).nvFault = s.nvFault ∧
    (s.offerExpired slot).ports = s.ports ∧ (s.offerExpired slot).vote = s.vote ∧ (s.offerExpired slot).mem = s.mem ∧
    (s.offerExpired slot).alloc = s.alloc ∧ (s.offerExpired slot).integ = s.integ ∧
    (s.offerExpired slot).clocks = s.clocks ∧ (s.offerExpired slot).recalls = s.recalls ∧
    (s.offerExpired slot).lanes = s.lanes := by
  unfold State.offerExpired; (repeat' (first | split | dsimp only)) <;> simp

@[simp] theorem keeps_handOver (s : State) (slot : Nat) (i : Inst) (q : Port) :
    (s.handOver slot i q).pending = s.pending ∧ (s.handOver slot i q).running = s.running ∧
    (s.handOver slot i q).straps = s.straps ∧ (s.handOver slot i q).frame = s.frame ∧
    (s.handOver slot i q).ending = s.ending ∧ (s.handOver slot i q).nvFault = s.nvFault ∧
    (s.handOver slot i q).ports = s.ports ∧ (s.handOver slot i q).vote = s.vote ∧
    (s.handOver slot i q).integ = s.integ ∧ (s.handOver slot i q).lanes = s.lanes := by
  unfold State.handOver; (repeat' (first | split | dsimp only)) <;> simp

@[simp] theorem keeps_cancelItem (s : State) (p : Port) (number n : Nat) (item : RecallItem) :
    (s.cancelItem p number n item).pending = s.pending ∧ (s.cancelItem p number n item).running = s.running ∧
    (s.cancelItem p number n item).straps = s.straps ∧ (s.cancelItem p number n item).frame = s.frame ∧
    (s.cancelItem p number n item).ending = s.ending ∧ (s.cancelItem p number n item).nvFault = s.nvFault ∧
    (s.cancelItem p number n item).ports = s.ports ∧ (s.cancelItem p number n item).vote = s.vote ∧
    (s.cancelItem p number n item).mem = s.mem ∧ (s.cancelItem p number n item).alloc = s.alloc ∧
    (s.cancelItem p number n item).integ = s.integ ∧ (s.cancelItem p number n item).clocks = s.clocks ∧
    (s.cancelItem p number n item).lanes = s.lanes ∧ (s.cancelItem p number n item).notices = s.notices := by
  unfold State.cancelItem; (repeat' (first | split | dsimp only)) <;> simp

@[simp] theorem keeps_passRelease (s : State) (p : Port) (ramp n : Nat) (item : RecallItem) :
    (s.passRelease p ramp n item).pending = s.pending ∧ (s.passRelease p ramp n item).running = s.running ∧
    (s.passRelease p ramp n item).straps = s.straps ∧ (s.passRelease p ramp n item).frame = s.frame ∧
    (s.passRelease p ramp n item).ending = s.ending ∧ (s.passRelease p ramp n item).nvFault = s.nvFault ∧
    (s.passRelease p ramp n item).ports = s.ports ∧ (s.passRelease p ramp n item).vote = s.vote := by
  unfold State.passRelease; (repeat' (first | split | dsimp only)) <;> simp

@[simp] theorem keeps_passSet (s : State) (p : Port) (ramp n : Nat) (item : RecallItem) :
    (s.passSet p ramp n item).pending = s.pending ∧ (s.passSet p ramp n item).running = s.running ∧
    (s.passSet p ramp n item).straps = s.straps ∧ (s.passSet p ramp n item).frame = s.frame ∧
    (s.passSet p ramp n item).ending = s.ending ∧ (s.passSet p ramp n item).nvFault = s.nvFault ∧
    (s.passSet p ramp n item).ports = s.ports ∧ (s.passSet p ramp n item).vote = s.vote ∧
    (s.passSet p ramp n item).mem = s.mem ∧ (s.passSet p ramp n item).alloc = s.alloc ∧
    (s.passSet p ramp n item).integ = s.integ ∧ (s.passSet p ramp n item).clocks = s.clocks ∧
    (s.passSet p ramp n item).lanes = s.lanes ∧ (s.passSet p ramp n item).notices = s.notices := by
  unfold State.passSet; (repeat' (first | split | dsimp only)) <;> simp

@[simp] theorem keeps_forceDrains (s : State) (p : Port) (number fuel : Nat) :
    (State.forceDrains p number fuel s).pending = s.pending ∧
    (State.forceDrains p number fuel s).running = s.running ∧ (State.forceDrains p number fuel s).straps = s.straps ∧
    (State.forceDrains p number fuel s).frame = s.frame ∧ (State.forceDrains p number fuel s).ending = s.ending ∧
    (State.forceDrains p number fuel s).nvFault = s.nvFault ∧ (State.forceDrains p number fuel s).ports = s.ports ∧
    (State.forceDrains p number fuel s).vote = s.vote ∧ (State.forceDrains p number fuel s).mem = s.mem ∧
    (State.forceDrains p number fuel s).alloc = s.alloc ∧ (State.forceDrains p number fuel s).integ = s.integ ∧
    (State.forceDrains p number fuel s).clocks = s.clocks ∧ (State.forceDrains p number fuel s).lanes = s.lanes := by
  induction fuel generalizing s with
  | zero => simp [State.forceDrains]
  | succ n ih =>
    unfold State.forceDrains
    repeat' split
    all_goals (try dsimp only)
    all_goals first | simp; done | (simp only [ih]; simp)

@[simp] theorem keeps_waitItem (s : State) (slot : Nat) (base : Inst) (k : Kept) (why : Reason) (number : Nat) :
    (s.waitItem slot base k why number).pending = s.pending ∧
    (s.waitItem slot base k why number).running = s.running ∧ (s.waitItem slot base k why number).straps = s.straps ∧
    (s.waitItem slot base k why number).frame = s.frame ∧ (s.waitItem slot base k why number).ending = s.ending ∧
    (s.waitItem slot base k why number).nvFault = s.nvFault ∧ (s.waitItem slot base k why number).ports = s.ports ∧
    (s.waitItem slot base k why number).vote = s.vote ∧ (s.waitItem slot base k why number).mem = s.mem ∧
    (s.waitItem slot base k why number).integ = s.integ ∧ (s.waitItem slot base k why number).clocks = s.clocks ∧
    (s.waitItem slot base k why number).lanes = s.lanes := by
  simp [State.waitItem]

@[simp] theorem keeps_passCharge (s : State) (p : Port) (number : Nat) (x : Nat × CreateForm × Kept) :
    (s.passCharge p number x).pending = s.pending ∧ (s.passCharge p number x).running = s.running ∧
    (s.passCharge p number x).straps = s.straps ∧ (s.passCharge p number x).frame = s.frame ∧
    (s.passCharge p number x).ending = s.ending ∧ (s.passCharge p number x).nvFault = s.nvFault ∧
    (s.passCharge p number x).ports = s.ports ∧ (s.passCharge p number x).vote = s.vote ∧
    (s.passCharge p number x).integ = s.integ ∧ (s.passCharge p number x).lanes = s.lanes := by
  unfold State.passCharge; (repeat' (first | split | dsimp only)) <;> simp

@[simp] theorem keeps_cancelItems (s : State) (p : Port) (number : Nat) (l : List (Nat × RecallItem)) :
    (l.foldl (fun s x => s.cancelItem p number x.1 x.2) s).pending = s.pending ∧
    (l.foldl (fun s x => s.cancelItem p number x.1 x.2) s).running = s.running ∧
    (l.foldl (fun s x => s.cancelItem p number x.1 x.2) s).straps = s.straps ∧
    (l.foldl (fun s x => s.cancelItem p number x.1 x.2) s).frame = s.frame ∧
    (l.foldl (fun s x => s.cancelItem p number x.1 x.2) s).ending = s.ending ∧
    (l.foldl (fun s x => s.cancelItem p number x.1 x.2) s).nvFault = s.nvFault ∧
    (l.foldl (fun s x => s.cancelItem p number x.1 x.2) s).ports = s.ports ∧
    (l.foldl (fun s x => s.cancelItem p number x.1 x.2) s).vote = s.vote ∧
    (l.foldl (fun s x => s.cancelItem p number x.1 x.2) s).mem = s.mem ∧
    (l.foldl (fun s x => s.cancelItem p number x.1 x.2) s).alloc = s.alloc ∧
    (l.foldl (fun s x => s.cancelItem p number x.1 x.2) s).integ = s.integ ∧
    (l.foldl (fun s x => s.cancelItem p number x.1 x.2) s).clocks = s.clocks ∧
    (l.foldl (fun s x => s.cancelItem p number x.1 x.2) s).lanes = s.lanes ∧
    (l.foldl (fun s x => s.cancelItem p number x.1 x.2) s).notices = s.notices :=
  ⟨foldl_keeps State.pending _ (fun s x => by simp) _ _,
    foldl_keeps State.running _ (fun s x => by simp) _ _,
    foldl_keeps State.straps _ (fun s x => by simp) _ _,
    foldl_keeps State.frame _ (fun s x => by simp) _ _,
    foldl_keeps State.ending _ (fun s x => by simp) _ _,
    foldl_keeps State.nvFault _ (fun s x => by simp) _ _,
    foldl_keeps State.ports _ (fun s x => by simp) _ _,
    foldl_keeps State.vote _ (fun s x => by simp) _ _,
    foldl_keeps State.mem _ (fun s x => by simp) _ _,
    foldl_keeps State.alloc _ (fun s x => by simp) _ _,
    foldl_keeps State.integ _ (fun s x => by simp) _ _,
    foldl_keeps State.clocks _ (fun s x => by simp) _ _,
    foldl_keeps State.lanes _ (fun s x => by simp) _ _,
    foldl_keeps State.notices _ (fun s x => by simp) _ _⟩

@[simp] theorem keeps_passReleases (s : State) (p : Port) (ramp : Nat) (l : List (Nat × RecallItem)) :
    (l.foldl (fun s x => s.passRelease p ramp x.1 x.2) s).pending = s.pending ∧
    (l.foldl (fun s x => s.passRelease p ramp x.1 x.2) s).running = s.running ∧
    (l.foldl (fun s x => s.passRelease p ramp x.1 x.2) s).straps = s.straps ∧
    (l.foldl (fun s x => s.passRelease p ramp x.1 x.2) s).frame = s.frame ∧
    (l.foldl (fun s x => s.passRelease p ramp x.1 x.2) s).ending = s.ending ∧
    (l.foldl (fun s x => s.passRelease p ramp x.1 x.2) s).nvFault = s.nvFault ∧
    (l.foldl (fun s x => s.passRelease p ramp x.1 x.2) s).ports = s.ports ∧
    (l.foldl (fun s x => s.passRelease p ramp x.1 x.2) s).vote = s.vote :=
  ⟨foldl_keeps State.pending _ (fun s x => by simp) _ _,
    foldl_keeps State.running _ (fun s x => by simp) _ _,
    foldl_keeps State.straps _ (fun s x => by simp) _ _,
    foldl_keeps State.frame _ (fun s x => by simp) _ _,
    foldl_keeps State.ending _ (fun s x => by simp) _ _,
    foldl_keeps State.nvFault _ (fun s x => by simp) _ _,
    foldl_keeps State.ports _ (fun s x => by simp) _ _,
    foldl_keeps State.vote _ (fun s x => by simp) _ _⟩

@[simp] theorem keeps_passSets (s : State) (p : Port) (ramp : Nat) (l : List (Nat × RecallItem)) :
    (l.foldl (fun s x => s.passSet p ramp x.1 x.2) s).pending = s.pending ∧
    (l.foldl (fun s x => s.passSet p ramp x.1 x.2) s).running = s.running ∧
    (l.foldl (fun s x => s.passSet p ramp x.1 x.2) s).straps = s.straps ∧
    (l.foldl (fun s x => s.passSet p ramp x.1 x.2) s).frame = s.frame ∧
    (l.foldl (fun s x => s.passSet p ramp x.1 x.2) s).ending = s.ending ∧
    (l.foldl (fun s x => s.passSet p ramp x.1 x.2) s).nvFault = s.nvFault ∧
    (l.foldl (fun s x => s.passSet p ramp x.1 x.2) s).ports = s.ports ∧
    (l.foldl (fun s x => s.passSet p ramp x.1 x.2) s).vote = s.vote ∧
    (l.foldl (fun s x => s.passSet p ramp x.1 x.2) s).mem = s.mem ∧
    (l.foldl (fun s x => s.passSet p ramp x.1 x.2) s).alloc = s.alloc ∧
    (l.foldl (fun s x => s.passSet p ramp x.1 x.2) s).integ = s.integ ∧
    (l.foldl (fun s x => s.passSet p ramp x.1 x.2) s).clocks = s.clocks ∧
    (l.foldl (fun s x => s.passSet p ramp x.1 x.2) s).lanes = s.lanes ∧
    (l.foldl (fun s x => s.passSet p ramp x.1 x.2) s).notices = s.notices :=
  ⟨foldl_keeps State.pending _ (fun s x => by simp) _ _,
    foldl_keeps State.running _ (fun s x => by simp) _ _,
    foldl_keeps State.straps _ (fun s x => by simp) _ _,
    foldl_keeps State.frame _ (fun s x => by simp) _ _,
    foldl_keeps State.ending _ (fun s x => by simp) _ _,
    foldl_keeps State.nvFault _ (fun s x => by simp) _ _,
    foldl_keeps State.ports _ (fun s x => by simp) _ _,
    foldl_keeps State.vote _ (fun s x => by simp) _ _,
    foldl_keeps State.mem _ (fun s x => by simp) _ _,
    foldl_keeps State.alloc _ (fun s x => by simp) _ _,
    foldl_keeps State.integ _ (fun s x => by simp) _ _,
    foldl_keeps State.clocks _ (fun s x => by simp) _ _,
    foldl_keeps State.lanes _ (fun s x => by simp) _ _,
    foldl_keeps State.notices _ (fun s x => by simp) _ _⟩

@[simp] theorem keeps_passCharges (s : State) (p : Port) (number : Nat) (l : List (Nat × CreateForm × Kept)) :
    (l.foldl (fun s x => s.passCharge p number x) s).pending = s.pending ∧
    (l.foldl (fun s x => s.passCharge p number x) s).running = s.running ∧
    (l.foldl (fun s x => s.passCharge p number x) s).straps = s.straps ∧
    (l.foldl (fun s x => s.passCharge p number x) s).frame = s.frame ∧
    (l.foldl (fun s x => s.passCharge p number x) s).ending = s.ending ∧
    (l.foldl (fun s x => s.passCharge p number x) s).nvFault = s.nvFault ∧
    (l.foldl (fun s x => s.passCharge p number x) s).ports = s.ports ∧
    (l.foldl (fun s x => s.passCharge p number x) s).vote = s.vote ∧
    (l.foldl (fun s x => s.passCharge p number x) s).integ = s.integ ∧
    (l.foldl (fun s x => s.passCharge p number x) s).lanes = s.lanes :=
  ⟨foldl_keeps State.pending _ (fun s x => by simp) _ _,
    foldl_keeps State.running _ (fun s x => by simp) _ _,
    foldl_keeps State.straps _ (fun s x => by simp) _ _,
    foldl_keeps State.frame _ (fun s x => by simp) _ _,
    foldl_keeps State.ending _ (fun s x => by simp) _ _,
    foldl_keeps State.nvFault _ (fun s x => by simp) _ _,
    foldl_keeps State.ports _ (fun s x => by simp) _ _,
    foldl_keeps State.vote _ (fun s x => by simp) _ _,
    foldl_keeps State.integ _ (fun s x => by simp) _ _,
    foldl_keeps State.lanes _ (fun s x => by simp) _ _⟩

@[simp] theorem keeps_applyRecord (s : State) (p : Port) (r : Record) :
    (s.applyRecord p r).pending = s.pending ∧ (s.applyRecord p r).running = s.running ∧
    (s.applyRecord p r).straps = s.straps ∧ (s.applyRecord p r).frame = s.frame ∧
    (s.applyRecord p r).ending = s.ending ∧ (s.applyRecord p r).nvFault = s.nvFault ∧
    (s.applyRecord p r).ports = s.ports ∧ (s.applyRecord p r).vote = s.vote := by
  simp [State.applyRecord]

@[simp] theorem keeps_applyArmed (s : State) (clock : Nat) (beat bar : Bool) :
    (s.applyArmed clock beat bar).pending = s.pending ∧ (s.applyArmed clock beat bar).running = s.running ∧
    (s.applyArmed clock beat bar).straps = s.straps ∧ (s.applyArmed clock beat bar).frame = s.frame ∧
    (s.applyArmed clock beat bar).ending = s.ending ∧ (s.applyArmed clock beat bar).nvFault = s.nvFault ∧
    (s.applyArmed clock beat bar).ports = s.ports ∧ (s.applyArmed clock beat bar).vote = s.vote := by
  unfold State.applyArmed
  exact ⟨foldl_keeps State.pending _ (fun s x => by (repeat' split) <;> simp) _ _,
    foldl_keeps State.running _ (fun s x => by (repeat' split) <;> simp) _ _,
    foldl_keeps State.straps _ (fun s x => by (repeat' split) <;> simp) _ _,
    foldl_keeps State.frame _ (fun s x => by (repeat' split) <;> simp) _ _,
    foldl_keeps State.ending _ (fun s x => by (repeat' split) <;> simp) _ _,
    foldl_keeps State.nvFault _ (fun s x => by (repeat' split) <;> simp) _ _,
    foldl_keeps State.ports _ (fun s x => by (repeat' split) <;> simp) _ _,
    foldl_keeps State.vote _ (fun s x => by (repeat' split) <;> simp) _ _⟩

@[simp] theorem keeps_updateSlots (s : State) (conds : List Cond) (l : List Nat) :
    (l.foldl (fun s k => s.applyUpdates k conds) s).pending = s.pending ∧
    (l.foldl (fun s k => s.applyUpdates k conds) s).running = s.running ∧
    (l.foldl (fun s k => s.applyUpdates k conds) s).straps = s.straps ∧
    (l.foldl (fun s k => s.applyUpdates k conds) s).frame = s.frame ∧
    (l.foldl (fun s k => s.applyUpdates k conds) s).ending = s.ending ∧
    (l.foldl (fun s k => s.applyUpdates k conds) s).nvFault = s.nvFault ∧
    (l.foldl (fun s k => s.applyUpdates k conds) s).ports = s.ports ∧
    (l.foldl (fun s k => s.applyUpdates k conds) s).vote = s.vote ∧
    (l.foldl (fun s k => s.applyUpdates k conds) s).mem = s.mem ∧
    (l.foldl (fun s k => s.applyUpdates k conds) s).alloc = s.alloc ∧
    (l.foldl (fun s k => s.applyUpdates k conds) s).integ = s.integ ∧
    (l.foldl (fun s k => s.applyUpdates k conds) s).clocks = s.clocks ∧
    (l.foldl (fun s k => s.applyUpdates k conds) s).recalls = s.recalls ∧
    (l.foldl (fun s k => s.applyUpdates k conds) s).lanes = s.lanes ∧
    (l.foldl (fun s k => s.applyUpdates k conds) s).notices = s.notices :=
  ⟨foldl_keeps State.pending _ (fun s x => by simp) _ _,
    foldl_keeps State.running _ (fun s x => by simp) _ _,
    foldl_keeps State.straps _ (fun s x => by simp) _ _,
    foldl_keeps State.frame _ (fun s x => by simp) _ _,
    foldl_keeps State.ending _ (fun s x => by simp) _ _,
    foldl_keeps State.nvFault _ (fun s x => by simp) _ _,
    foldl_keeps State.ports _ (fun s x => by simp) _ _,
    foldl_keeps State.vote _ (fun s x => by simp) _ _,
    foldl_keeps State.mem _ (fun s x => by simp) _ _,
    foldl_keeps State.alloc _ (fun s x => by simp) _ _,
    foldl_keeps State.integ _ (fun s x => by simp) _ _,
    foldl_keeps State.clocks _ (fun s x => by simp) _ _,
    foldl_keeps State.recalls _ (fun s x => by simp) _ _,
    foldl_keeps State.lanes _ (fun s x => by simp) _ _,
    foldl_keeps State.notices _ (fun s x => by simp) _ _⟩

@[simp] theorem keeps_deliver (s : State) (clock : Nat) (beat bar : Bool) :
    (s.deliver clock beat bar).pending = s.pending ∧ (s.deliver clock beat bar).running = s.running ∧
    (s.deliver clock beat bar).straps = s.straps ∧ (s.deliver clock beat bar).frame = s.frame ∧
    (s.deliver clock beat bar).ending = s.ending ∧ (s.deliver clock beat bar).nvFault = s.nvFault ∧
    (s.deliver clock beat bar).ports = s.ports ∧ (s.deliver clock beat bar).vote = s.vote := by
  simp [State.deliver]

@[simp] theorem keeps_freeWaitings (s : State)  (l : List Nat) :
    (l.foldl State.freeWaiting s).pending = s.pending ∧
    (l.foldl State.freeWaiting s).running = s.running ∧
    (l.foldl State.freeWaiting s).straps = s.straps ∧
    (l.foldl State.freeWaiting s).frame = s.frame ∧
    (l.foldl State.freeWaiting s).ending = s.ending ∧
    (l.foldl State.freeWaiting s).nvFault = s.nvFault ∧
    (l.foldl State.freeWaiting s).ports = s.ports ∧
    (l.foldl State.freeWaiting s).vote = s.vote ∧
    (l.foldl State.freeWaiting s).mem = s.mem ∧
    (l.foldl State.freeWaiting s).integ = s.integ ∧
    (l.foldl State.freeWaiting s).clocks = s.clocks ∧
    (l.foldl State.freeWaiting s).recalls = s.recalls ∧
    (l.foldl State.freeWaiting s).lanes = s.lanes ∧
    (l.foldl State.freeWaiting s).notices = s.notices :=
  ⟨foldl_keeps State.pending _ (fun s x => by simp) _ _,
    foldl_keeps State.running _ (fun s x => by simp) _ _,
    foldl_keeps State.straps _ (fun s x => by simp) _ _,
    foldl_keeps State.frame _ (fun s x => by simp) _ _,
    foldl_keeps State.ending _ (fun s x => by simp) _ _,
    foldl_keeps State.nvFault _ (fun s x => by simp) _ _,
    foldl_keeps State.ports _ (fun s x => by simp) _ _,
    foldl_keeps State.vote _ (fun s x => by simp) _ _,
    foldl_keeps State.mem _ (fun s x => by simp) _ _,
    foldl_keeps State.integ _ (fun s x => by simp) _ _,
    foldl_keeps State.clocks _ (fun s x => by simp) _ _,
    foldl_keeps State.recalls _ (fun s x => by simp) _ _,
    foldl_keeps State.lanes _ (fun s x => by simp) _ _,
    foldl_keeps State.notices _ (fun s x => by simp) _ _⟩

@[simp] theorem keeps_supersede (s : State) (p : Port) (r : Record) :
    (s.supersede p r).pending = s.pending ∧ (s.supersede p r).running = s.running ∧
    (s.supersede p r).straps = s.straps ∧ (s.supersede p r).frame = s.frame ∧ (s.supersede p r).ending = s.ending ∧
    (s.supersede p r).nvFault = s.nvFault ∧ (s.supersede p r).ports = s.ports ∧ (s.supersede p r).vote = s.vote ∧
    (s.supersede p r).mem = s.mem ∧ (s.supersede p r).integ = s.integ ∧ (s.supersede p r).clocks = s.clocks ∧
    (s.supersede p r).lanes = s.lanes := by
  simp [State.supersede]

/-- Tags set on the old instances of a record. -/
@[simp] theorem keeps_tagSlots (s : State) (n : Nat) (l : List Nat) :
    (l.foldl (fun s k => s.modInst k fun i => { i with tag := some n }) s).pending = s.pending ∧
    (l.foldl (fun s k => s.modInst k fun i => { i with tag := some n }) s).running = s.running ∧
    (l.foldl (fun s k => s.modInst k fun i => { i with tag := some n }) s).straps = s.straps ∧
    (l.foldl (fun s k => s.modInst k fun i => { i with tag := some n }) s).frame = s.frame ∧
    (l.foldl (fun s k => s.modInst k fun i => { i with tag := some n }) s).ending = s.ending ∧
    (l.foldl (fun s k => s.modInst k fun i => { i with tag := some n }) s).nvFault = s.nvFault ∧
    (l.foldl (fun s k => s.modInst k fun i => { i with tag := some n }) s).ports = s.ports ∧
    (l.foldl (fun s k => s.modInst k fun i => { i with tag := some n }) s).vote = s.vote ∧
    (l.foldl (fun s k => s.modInst k fun i => { i with tag := some n }) s).mem = s.mem ∧
    (l.foldl (fun s k => s.modInst k fun i => { i with tag := some n }) s).alloc = s.alloc ∧
    (l.foldl (fun s k => s.modInst k fun i => { i with tag := some n }) s).integ = s.integ ∧
    (l.foldl (fun s k => s.modInst k fun i => { i with tag := some n }) s).clocks = s.clocks ∧
    (l.foldl (fun s k => s.modInst k fun i => { i with tag := some n }) s).recalls = s.recalls ∧
    (l.foldl (fun s k => s.modInst k fun i => { i with tag := some n }) s).lanes = s.lanes ∧
    (l.foldl (fun s k => s.modInst k fun i => { i with tag := some n }) s).notices = s.notices :=
  ⟨foldl_keeps State.pending _ (fun s x => by simp) _ _,
    foldl_keeps State.running _ (fun s x => by simp) _ _,
    foldl_keeps State.straps _ (fun s x => by simp) _ _,
    foldl_keeps State.frame _ (fun s x => by simp) _ _,
    foldl_keeps State.ending _ (fun s x => by simp) _ _,
    foldl_keeps State.nvFault _ (fun s x => by simp) _ _,
    foldl_keeps State.ports _ (fun s x => by simp) _ _,
    foldl_keeps State.vote _ (fun s x => by simp) _ _,
    foldl_keeps State.mem _ (fun s x => by simp) _ _,
    foldl_keeps State.alloc _ (fun s x => by simp) _ _,
    foldl_keeps State.integ _ (fun s x => by simp) _ _,
    foldl_keeps State.clocks _ (fun s x => by simp) _ _,
    foldl_keeps State.recalls _ (fun s x => by simp) _ _,
    foldl_keeps State.lanes _ (fun s x => by simp) _ _,
    foldl_keeps State.notices _ (fun s x => by simp) _ _⟩

@[simp] theorem keeps_makeRecord (s : State) (p : Port) (x : Staging) :
    (s.makeRecord p x).pending = s.pending ∧ (s.makeRecord p x).running = s.running ∧
    (s.makeRecord p x).straps = s.straps ∧ (s.makeRecord p x).frame = s.frame ∧
    (s.makeRecord p x).ending = s.ending ∧ (s.makeRecord p x).nvFault = s.nvFault ∧
    (s.makeRecord p x).ports = s.ports ∧ (s.makeRecord p x).vote = s.vote ∧ (s.makeRecord p x).mem = s.mem ∧
    (s.makeRecord p x).alloc = s.alloc ∧ (s.makeRecord p x).integ = s.integ ∧ (s.makeRecord p x).clocks = s.clocks ∧
    (s.makeRecord p x).lanes = s.lanes ∧ (s.makeRecord p x).notices = s.notices := by
  simp [State.makeRecord]

@[simp] theorem keeps_tellTempo (s : State) (k : Nat) (cause : TempoCause) (source : TempoSource) :
    (s.tellTempo k cause source).pending = s.pending ∧ (s.tellTempo k cause source).running = s.running ∧
    (s.tellTempo k cause source).straps = s.straps ∧ (s.tellTempo k cause source).frame = s.frame ∧
    (s.tellTempo k cause source).ending = s.ending ∧ (s.tellTempo k cause source).nvFault = s.nvFault ∧
    (s.tellTempo k cause source).ports = s.ports ∧ (s.tellTempo k cause source).vote = s.vote ∧
    (s.tellTempo k cause source).insts = s.insts ∧ (s.tellTempo k cause source).mem = s.mem ∧
    (s.tellTempo k cause source).alloc = s.alloc ∧ (s.tellTempo k cause source).integ = s.integ ∧
    (s.tellTempo k cause source).clocks = s.clocks ∧ (s.tellTempo k cause source).recalls = s.recalls ∧
    (s.tellTempo k cause source).lanes = s.lanes := by
  unfold State.tellTempo; simp only [allPorts, List.foldl]; (repeat' (first | split | dsimp only)) <;> simp

@[simp] theorem keeps_openClock (s : State) (p : Port) (k : Nat) :
    (s.openClock p k).pending = s.pending ∧ (s.openClock p k).running = s.running ∧
    (s.openClock p k).straps = s.straps ∧ (s.openClock p k).frame = s.frame ∧ (s.openClock p k).ending = s.ending ∧
    (s.openClock p k).nvFault = s.nvFault ∧ (s.openClock p k).ports = s.ports ∧ (s.openClock p k).vote = s.vote ∧
    (s.openClock p k).insts = s.insts ∧ (s.openClock p k).mem = s.mem ∧ (s.openClock p k).alloc = s.alloc ∧
    (s.openClock p k).integ = s.integ ∧ (s.openClock p k).recalls = s.recalls ∧ (s.openClock p k).lanes = s.lanes := by
  simp [State.openClock]

@[simp] theorem keeps_moveClock (s : State) (k : Nat) (c d : Clock) :
    (s.moveClock k c d).pending = s.pending ∧ (s.moveClock k c d).running = s.running ∧
    (s.moveClock k c d).straps = s.straps ∧ (s.moveClock k c d).frame = s.frame ∧
    (s.moveClock k c d).ending = s.ending ∧ (s.moveClock k c d).nvFault = s.nvFault ∧
    (s.moveClock k c d).ports = s.ports ∧ (s.moveClock k c d).vote = s.vote ∧ (s.moveClock k c d).mem = s.mem ∧
    (s.moveClock k c d).alloc = s.alloc ∧ (s.moveClock k c d).integ = s.integ ∧
    (s.moveClock k c d).recalls = s.recalls ∧ (s.moveClock k c d).lanes = s.lanes ∧
    (s.moveClock k c d).notices = s.notices := by
  unfold State.moveClock
  dsimp only
  split
  · refine ⟨(foldl_keeps State.pending _ (fun s x => by simp) _ _).trans (by simp),
      (foldl_keeps State.running _ (fun s x => by simp) _ _).trans (by simp),
      (foldl_keeps State.straps _ (fun s x => by simp) _ _).trans (by simp),
      (foldl_keeps State.frame _ (fun s x => by simp) _ _).trans (by simp),
      (foldl_keeps State.ending _ (fun s x => by simp) _ _).trans (by simp),
      (foldl_keeps State.nvFault _ (fun s x => by simp) _ _).trans (by simp),
      (foldl_keeps State.ports _ (fun s x => by simp) _ _).trans (by simp),
      (foldl_keeps State.vote _ (fun s x => by simp) _ _).trans (by simp),
      (foldl_keeps State.mem _ (fun s x => by simp) _ _).trans (by simp),
      (foldl_keeps State.alloc _ (fun s x => by simp) _ _).trans (by simp),
      (foldl_keeps State.integ _ (fun s x => by simp) _ _).trans (by simp),
      (foldl_keeps State.recalls _ (fun s x => by simp) _ _).trans (by simp),
      (foldl_keeps State.lanes _ (fun s x => by simp) _ _).trans (by simp),
      (foldl_keeps State.notices _ (fun s x => by simp) _ _).trans (by simp)⟩
  · simp

@[simp] theorem keeps_tapClock (s : State) (k : Nat) (source : TempoSource) :
    ((s.tapClock k source).1).pending = s.pending ∧ ((s.tapClock k source).1).running = s.running ∧
    ((s.tapClock k source).1).straps = s.straps ∧ ((s.tapClock k source).1).frame = s.frame ∧
    ((s.tapClock k source).1).ending = s.ending ∧ ((s.tapClock k source).1).nvFault = s.nvFault ∧
    ((s.tapClock k source).1).ports = s.ports ∧ ((s.tapClock k source).1).vote = s.vote := by
  unfold State.tapClock; (repeat' (first | split | dsimp only)) <;> simp

@[simp] theorem keeps_tapEdge (s : State) :
    (s.tapEdge).pending = s.pending ∧ (s.tapEdge).running = s.running ∧ (s.tapEdge).straps = s.straps ∧
    (s.tapEdge).frame = s.frame ∧ (s.tapEdge).ending = s.ending ∧ (s.tapEdge).nvFault = s.nvFault ∧
    (s.tapEdge).ports = s.ports ∧ (s.tapEdge).vote = s.vote := by
  unfold State.tapEdge; (repeat' (first | split | dsimp only)) <;> simp

@[simp] theorem keeps_beatEvent (s : State) (k : Nat) :
    (s.beatEvent k).pending = s.pending ∧ (s.beatEvent k).running = s.running ∧ (s.beatEvent k).straps = s.straps ∧
    (s.beatEvent k).frame = s.frame ∧ (s.beatEvent k).ending = s.ending ∧ (s.beatEvent k).nvFault = s.nvFault ∧
    (s.beatEvent k).ports = s.ports ∧ (s.beatEvent k).vote = s.vote := by
  unfold State.beatEvent; (repeat' (first | split | dsimp only)) <;> simp

@[simp] theorem keeps_lapseTap (s : State) (k : Nat) :
    (s.lapseTap k).pending = s.pending ∧ (s.lapseTap k).running = s.running ∧ (s.lapseTap k).straps = s.straps ∧
    (s.lapseTap k).frame = s.frame ∧ (s.lapseTap k).ending = s.ending ∧ (s.lapseTap k).nvFault = s.nvFault ∧
    (s.lapseTap k).ports = s.ports ∧ (s.lapseTap k).vote = s.vote ∧ (s.lapseTap k).insts = s.insts ∧
    (s.lapseTap k).mem = s.mem ∧ (s.lapseTap k).alloc = s.alloc ∧ (s.lapseTap k).integ = s.integ ∧
    (s.lapseTap k).recalls = s.recalls ∧ (s.lapseTap k).lanes = s.lanes ∧ (s.lapseTap k).notices = s.notices := by
  simp [State.lapseTap]

@[simp] theorem keeps_frameError (s : State) (p : Port) :
    (s.frameError p).pending = s.pending ∧ (s.frameError p).running = s.running ∧
    (s.frameError p).straps = s.straps ∧ (s.frameError p).frame = s.frame ∧ (s.frameError p).ending = s.ending ∧
    (s.frameError p).nvFault = s.nvFault ∧ (s.frameError p).ports = s.ports ∧ (s.frameError p).vote = s.vote ∧
    (s.frameError p).insts = s.insts ∧ (s.frameError p).mem = s.mem ∧ (s.frameError p).alloc = s.alloc ∧
    (s.frameError p).integ = s.integ ∧ (s.frameError p).clocks = s.clocks ∧ (s.frameError p).recalls = s.recalls ∧
    (s.frameError p).lanes = s.lanes := by
  simp [State.frameError]

@[simp] theorem keeps_enqueue (s : State) (p : Port) (q : QueuedReq) :
    (s.enqueue p q).pending = s.pending ∧ (s.enqueue p q).running = s.running ∧ (s.enqueue p q).straps = s.straps ∧
    (s.enqueue p q).frame = s.frame ∧ (s.enqueue p q).ending = s.ending ∧ (s.enqueue p q).nvFault = s.nvFault ∧
    (s.enqueue p q).vote = s.vote ∧ (s.enqueue p q).insts = s.insts ∧ (s.enqueue p q).mem = s.mem ∧
    (s.enqueue p q).alloc = s.alloc ∧ (s.enqueue p q).integ = s.integ ∧ (s.enqueue p q).clocks = s.clocks ∧
    (s.enqueue p q).recalls = s.recalls ∧ (s.enqueue p q).lanes = s.lanes := by
  unfold State.enqueue; (repeat' (first | split | dsimp only)) <;> simp

@[simp] theorem keeps_frameWhole (s : State) (p : Port) (l : List Byte) (len : Nat) :
    (s.frameWhole p l len).pending = s.pending ∧ (s.frameWhole p l len).running = s.running ∧
    (s.frameWhole p l len).straps = s.straps ∧ (s.frameWhole p l len).frame = s.frame ∧
    (s.frameWhole p l len).ending = s.ending ∧ (s.frameWhole p l len).nvFault = s.nvFault ∧
    (s.frameWhole p l len).vote = s.vote ∧ (s.frameWhole p l len).insts = s.insts ∧
    (s.frameWhole p l len).mem = s.mem ∧ (s.frameWhole p l len).alloc = s.alloc ∧
    (s.frameWhole p l len).integ = s.integ ∧ (s.frameWhole p l len).clocks = s.clocks ∧
    (s.frameWhole p l len).recalls = s.recalls ∧ (s.frameWhole p l len).lanes = s.lanes := by
  unfold State.frameWhole; (repeat' (first | split | dsimp only)) <;> simp

@[simp] theorem keeps_feed (s : State) (p : Port) (b : Byte) :
    (s.feed p b).pending = s.pending ∧ (s.feed p b).running = s.running ∧ (s.feed p b).straps = s.straps ∧
    (s.feed p b).frame = s.frame ∧ (s.feed p b).ending = s.ending ∧ (s.feed p b).nvFault = s.nvFault ∧
    (s.feed p b).vote = s.vote ∧ (s.feed p b).insts = s.insts ∧ (s.feed p b).mem = s.mem ∧
    (s.feed p b).alloc = s.alloc ∧ (s.feed p b).integ = s.integ ∧ (s.feed p b).clocks = s.clocks ∧
    (s.feed p b).recalls = s.recalls ∧ (s.feed p b).lanes = s.lanes := by
  unfold State.feed; (repeat' (first | split | dsimp only)) <;> simp

@[simp] theorem keeps_receive (s : State) (p : Port) (chars : List Byte) :
    (s.receive p chars).pending = s.pending ∧ (s.receive p chars).running = s.running ∧
    (s.receive p chars).straps = s.straps ∧ (s.receive p chars).frame = s.frame ∧
    (s.receive p chars).ending = s.ending ∧ (s.receive p chars).nvFault = s.nvFault ∧
    (s.receive p chars).vote = s.vote ∧ (s.receive p chars).insts = s.insts ∧ (s.receive p chars).mem = s.mem ∧
    (s.receive p chars).alloc = s.alloc ∧ (s.receive p chars).integ = s.integ ∧
    (s.receive p chars).clocks = s.clocks ∧ (s.receive p chars).recalls = s.recalls ∧
    (s.receive p chars).lanes = s.lanes := by
  unfold State.receive
  split
  · exact ⟨foldl_keeps State.pending _ (fun s x => by simp) _ _,
      foldl_keeps State.running _ (fun s x => by simp) _ _,
      foldl_keeps State.straps _ (fun s x => by simp) _ _,
      foldl_keeps State.frame _ (fun s x => by simp) _ _,
      foldl_keeps State.ending _ (fun s x => by simp) _ _,
      foldl_keeps State.nvFault _ (fun s x => by simp) _ _,
      foldl_keeps State.vote _ (fun s x => by simp) _ _,
      foldl_keeps State.insts _ (fun s x => by simp) _ _,
      foldl_keeps State.mem _ (fun s x => by simp) _ _,
      foldl_keeps State.alloc _ (fun s x => by simp) _ _,
      foldl_keeps State.integ _ (fun s x => by simp) _ _,
      foldl_keeps State.clocks _ (fun s x => by simp) _ _,
      foldl_keeps State.recalls _ (fun s x => by simp) _ _,
      foldl_keeps State.lanes _ (fun s x => by simp) _ _⟩
  · simp

@[simp] theorem keeps_tryCarry (s : State) (v : Vote) :
    (s.tryCarry v).pending = s.pending ∧ (s.tryCarry v).running = s.running ∧ (s.tryCarry v).straps = s.straps ∧
    (s.tryCarry v).frame = s.frame ∧ (s.tryCarry v).ending = s.ending ∧ (s.tryCarry v).nvFault = s.nvFault ∧
    (s.tryCarry v).ports = s.ports ∧ (s.tryCarry v).insts = s.insts ∧ (s.tryCarry v).mem = s.mem ∧
    (s.tryCarry v).alloc = s.alloc ∧ (s.tryCarry v).integ = s.integ ∧ (s.tryCarry v).clocks = s.clocks ∧
    (s.tryCarry v).recalls = s.recalls ∧ (s.tryCarry v).lanes = s.lanes ∧ (s.tryCarry v).notices = s.notices := by
  simp [State.tryCarry]

@[simp] theorem keeps_markAwaited (s : State) :
    (s.markAwaited).pending = s.pending ∧ (s.markAwaited).running = s.running ∧ (s.markAwaited).straps = s.straps ∧
    (s.markAwaited).frame = s.frame ∧ (s.markAwaited).ending = s.ending ∧ (s.markAwaited).nvFault = s.nvFault ∧
    (s.markAwaited).vote = s.vote ∧ (s.markAwaited).insts = s.insts ∧ (s.markAwaited).mem = s.mem ∧
    (s.markAwaited).alloc = s.alloc ∧ (s.markAwaited).integ = s.integ ∧ (s.markAwaited).clocks = s.clocks ∧
    (s.markAwaited).recalls = s.recalls ∧ (s.markAwaited).lanes = s.lanes ∧ (s.markAwaited).notices = s.notices := by
  simp [State.markAwaited]

@[simp] theorem keeps_leaveVote (s : State) (p : Port) :
    (s.leaveVote p).pending = s.pending ∧ (s.leaveVote p).running = s.running ∧ (s.leaveVote p).straps = s.straps ∧
    (s.leaveVote p).frame = s.frame ∧ (s.leaveVote p).ending = s.ending ∧ (s.leaveVote p).nvFault = s.nvFault ∧
    (s.leaveVote p).ports = s.ports ∧ (s.leaveVote p).insts = s.insts ∧ (s.leaveVote p).mem = s.mem ∧
    (s.leaveVote p).alloc = s.alloc ∧ (s.leaveVote p).integ = s.integ ∧ (s.leaveVote p).clocks = s.clocks ∧
    (s.leaveVote p).recalls = s.recalls ∧ (s.leaveVote p).lanes = s.lanes ∧ (s.leaveVote p).notices = s.notices := by
  unfold State.leaveVote; (repeat' (first | split | dsimp only)) <;> simp

@[simp] theorem keeps_dropVote (s : State) :
    (s.dropVote).pending = s.pending ∧ (s.dropVote).running = s.running ∧ (s.dropVote).straps = s.straps ∧
    (s.dropVote).frame = s.frame ∧ (s.dropVote).ending = s.ending ∧ (s.dropVote).nvFault = s.nvFault ∧
    (s.dropVote).ports = s.ports ∧ (s.dropVote).insts = s.insts ∧ (s.dropVote).mem = s.mem ∧
    (s.dropVote).alloc = s.alloc ∧ (s.dropVote).integ = s.integ ∧ (s.dropVote).clocks = s.clocks ∧
    (s.dropVote).recalls = s.recalls ∧ (s.dropVote).lanes = s.lanes := by
  unfold State.dropVote
  split
  · simp
  · split
    · simp
    · simp only [State.atFrameEnd, allPorts, List.foldl]
      (repeat' (first | split | dsimp only)) <;> simp

@[simp] theorem keeps_linkComesUp (s : State) (p : Port) :
    (s.linkComesUp p).pending = s.pending ∧ (s.linkComesUp p).running = s.running ∧
    (s.linkComesUp p).straps = s.straps ∧ (s.linkComesUp p).frame = s.frame ∧ (s.linkComesUp p).ending = s.ending ∧
    (s.linkComesUp p).nvFault = s.nvFault ∧ (s.linkComesUp p).vote = s.vote ∧ (s.linkComesUp p).insts = s.insts ∧
    (s.linkComesUp p).mem = s.mem ∧ (s.linkComesUp p).alloc = s.alloc ∧ (s.linkComesUp p).integ = s.integ ∧
    (s.linkComesUp p).clocks = s.clocks ∧ (s.linkComesUp p).recalls = s.recalls ∧ (s.linkComesUp p).lanes = s.lanes := by
  unfold State.linkComesUp; dsimp only; split <;> simp [State.atFrameEnd]

@[simp] theorem keeps_voteLinkLost (s : State) (p : Port) :
    (s.voteLinkLost p).pending = s.pending ∧ (s.voteLinkLost p).running = s.running ∧
    (s.voteLinkLost p).straps = s.straps ∧ (s.voteLinkLost p).frame = s.frame ∧
    (s.voteLinkLost p).ending = s.ending ∧ (s.voteLinkLost p).nvFault = s.nvFault ∧
    (s.voteLinkLost p).insts = s.insts ∧ (s.voteLinkLost p).mem = s.mem ∧ (s.voteLinkLost p).alloc = s.alloc ∧
    (s.voteLinkLost p).integ = s.integ ∧ (s.voteLinkLost p).clocks = s.clocks ∧
    (s.voteLinkLost p).recalls = s.recalls ∧ (s.voteLinkLost p).lanes = s.lanes ∧
    (s.voteLinkLost p).notices = s.notices := by
  unfold State.voteLinkLost; (repeat' (first | split | dsimp only)) <;> simp

@[simp] theorem keeps_linkGoesDown (s : State) (p : Port) :
    (s.linkGoesDown p).pending = s.pending ∧ (s.linkGoesDown p).running = s.running ∧
    (s.linkGoesDown p).straps = s.straps ∧ (s.linkGoesDown p).frame = s.frame ∧
    (s.linkGoesDown p).ending = s.ending ∧ (s.linkGoesDown p).nvFault = s.nvFault ∧ (s.linkGoesDown p).mem = s.mem ∧
    (s.linkGoesDown p).alloc = s.alloc ∧ (s.linkGoesDown p).integ = s.integ ∧ (s.linkGoesDown p).clocks = s.clocks ∧
    (s.linkGoesDown p).lanes = s.lanes := by
  unfold State.linkGoesDown; dsimp only; split <;> simp [State.atFrameEnd]

@[simp] theorem keeps_clearPriming (s : State) (k : Nat) :
    (s.clearPriming k).pending = s.pending ∧ (s.clearPriming k).running = s.running ∧
    (s.clearPriming k).straps = s.straps ∧ (s.clearPriming k).frame = s.frame ∧
    (s.clearPriming k).ending = s.ending ∧ (s.clearPriming k).nvFault = s.nvFault ∧
    (s.clearPriming k).ports = s.ports ∧ (s.clearPriming k).vote = s.vote := by
  unfold State.clearPriming; (repeat' (first | split | dsimp only)) <;> simp

@[simp] theorem keeps_clearFading (s : State) (p : Port) (k : Nat) :
    (State.clearFading p s k).pending = s.pending ∧ (State.clearFading p s k).running = s.running ∧
    (State.clearFading p s k).straps = s.straps ∧ (State.clearFading p s k).frame = s.frame ∧
    (State.clearFading p s k).ending = s.ending ∧ (State.clearFading p s k).nvFault = s.nvFault ∧
    (State.clearFading p s k).ports = s.ports ∧ (State.clearFading p s k).vote = s.vote ∧
    (State.clearFading p s k).mem = s.mem ∧ (State.clearFading p s k).alloc = s.alloc ∧
    (State.clearFading p s k).integ = s.integ ∧ (State.clearFading p s k).clocks = s.clocks ∧
    (State.clearFading p s k).recalls = s.recalls ∧ (State.clearFading p s k).lanes = s.lanes := by
  unfold State.clearFading; (repeat' (first | split | dsimp only)) <;> simp

@[simp] theorem keeps_clearPrimings (s : State)  (l : List Nat) :
    (l.foldl State.clearPriming s).pending = s.pending ∧
    (l.foldl State.clearPriming s).running = s.running ∧
    (l.foldl State.clearPriming s).straps = s.straps ∧
    (l.foldl State.clearPriming s).frame = s.frame ∧
    (l.foldl State.clearPriming s).ending = s.ending ∧
    (l.foldl State.clearPriming s).nvFault = s.nvFault ∧
    (l.foldl State.clearPriming s).ports = s.ports ∧
    (l.foldl State.clearPriming s).vote = s.vote :=
  ⟨foldl_keeps State.pending _ (fun s x => by simp) _ _,
    foldl_keeps State.running _ (fun s x => by simp) _ _,
    foldl_keeps State.straps _ (fun s x => by simp) _ _,
    foldl_keeps State.frame _ (fun s x => by simp) _ _,
    foldl_keeps State.ending _ (fun s x => by simp) _ _,
    foldl_keeps State.nvFault _ (fun s x => by simp) _ _,
    foldl_keeps State.ports _ (fun s x => by simp) _ _,
    foldl_keeps State.vote _ (fun s x => by simp) _ _⟩

@[simp] theorem keeps_clearFadings (s : State) (p : Port) (l : List Nat) :
    (l.foldl (State.clearFading p) s).pending = s.pending ∧
    (l.foldl (State.clearFading p) s).running = s.running ∧
    (l.foldl (State.clearFading p) s).straps = s.straps ∧
    (l.foldl (State.clearFading p) s).frame = s.frame ∧
    (l.foldl (State.clearFading p) s).ending = s.ending ∧
    (l.foldl (State.clearFading p) s).nvFault = s.nvFault ∧
    (l.foldl (State.clearFading p) s).ports = s.ports ∧
    (l.foldl (State.clearFading p) s).vote = s.vote ∧
    (l.foldl (State.clearFading p) s).mem = s.mem ∧
    (l.foldl (State.clearFading p) s).alloc = s.alloc ∧
    (l.foldl (State.clearFading p) s).integ = s.integ ∧
    (l.foldl (State.clearFading p) s).clocks = s.clocks ∧
    (l.foldl (State.clearFading p) s).recalls = s.recalls ∧
    (l.foldl (State.clearFading p) s).lanes = s.lanes :=
  ⟨foldl_keeps State.pending _ (fun s x => by simp) _ _,
    foldl_keeps State.running _ (fun s x => by simp) _ _,
    foldl_keeps State.straps _ (fun s x => by simp) _ _,
    foldl_keeps State.frame _ (fun s x => by simp) _ _,
    foldl_keeps State.ending _ (fun s x => by simp) _ _,
    foldl_keeps State.nvFault _ (fun s x => by simp) _ _,
    foldl_keeps State.ports _ (fun s x => by simp) _ _,
    foldl_keeps State.vote _ (fun s x => by simp) _ _,
    foldl_keeps State.mem _ (fun s x => by simp) _ _,
    foldl_keeps State.alloc _ (fun s x => by simp) _ _,
    foldl_keeps State.integ _ (fun s x => by simp) _ _,
    foldl_keeps State.clocks _ (fun s x => by simp) _ _,
    foldl_keeps State.recalls _ (fun s x => by simp) _ _,
    foldl_keeps State.lanes _ (fun s x => by simp) _ _⟩

@[simp] theorem keeps_releaseChannels (s : State) (p : Port) (l : List Nat) :
    (l.foldl (fun s c => s.releaseChannel p c) s).pending = s.pending ∧
    (l.foldl (fun s c => s.releaseChannel p c) s).running = s.running ∧
    (l.foldl (fun s c => s.releaseChannel p c) s).straps = s.straps ∧
    (l.foldl (fun s c => s.releaseChannel p c) s).frame = s.frame ∧
    (l.foldl (fun s c => s.releaseChannel p c) s).ending = s.ending ∧
    (l.foldl (fun s c => s.releaseChannel p c) s).nvFault = s.nvFault ∧
    (l.foldl (fun s c => s.releaseChannel p c) s).ports = s.ports ∧
    (l.foldl (fun s c => s.releaseChannel p c) s).vote = s.vote ∧
    (l.foldl (fun s c => s.releaseChannel p c) s).mem = s.mem ∧
    (l.foldl (fun s c => s.releaseChannel p c) s).alloc = s.alloc ∧
    (l.foldl (fun s c => s.releaseChannel p c) s).integ = s.integ ∧
    (l.foldl (fun s c => s.releaseChannel p c) s).clocks = s.clocks ∧
    (l.foldl (fun s c => s.releaseChannel p c) s).recalls = s.recalls ∧
    (l.foldl (fun s c => s.releaseChannel p c) s).notices = s.notices :=
  ⟨foldl_keeps State.pending _ (fun s x => by simp) _ _,
    foldl_keeps State.running _ (fun s x => by simp) _ _,
    foldl_keeps State.straps _ (fun s x => by simp) _ _,
    foldl_keeps State.frame _ (fun s x => by simp) _ _,
    foldl_keeps State.ending _ (fun s x => by simp) _ _,
    foldl_keeps State.nvFault _ (fun s x => by simp) _ _,
    foldl_keeps State.ports _ (fun s x => by simp) _ _,
    foldl_keeps State.vote _ (fun s x => by simp) _ _,
    foldl_keeps State.mem _ (fun s x => by simp) _ _,
    foldl_keeps State.alloc _ (fun s x => by simp) _ _,
    foldl_keeps State.integ _ (fun s x => by simp) _ _,
    foldl_keeps State.clocks _ (fun s x => by simp) _ _,
    foldl_keeps State.recalls _ (fun s x => by simp) _ _,
    foldl_keeps State.notices _ (fun s x => by simp) _ _⟩

@[simp] theorem keeps_openClocks (s : State) (p : Port) (l : List Nat) :
    (l.foldl (fun s k => s.openClock p k) s).pending = s.pending ∧
    (l.foldl (fun s k => s.openClock p k) s).running = s.running ∧
    (l.foldl (fun s k => s.openClock p k) s).straps = s.straps ∧
    (l.foldl (fun s k => s.openClock p k) s).frame = s.frame ∧
    (l.foldl (fun s k => s.openClock p k) s).ending = s.ending ∧
    (l.foldl (fun s k => s.openClock p k) s).nvFault = s.nvFault ∧
    (l.foldl (fun s k => s.openClock p k) s).ports = s.ports ∧
    (l.foldl (fun s k => s.openClock p k) s).vote = s.vote ∧
    (l.foldl (fun s k => s.openClock p k) s).insts = s.insts ∧
    (l.foldl (fun s k => s.openClock p k) s).mem = s.mem ∧
    (l.foldl (fun s k => s.openClock p k) s).alloc = s.alloc ∧
    (l.foldl (fun s k => s.openClock p k) s).integ = s.integ ∧
    (l.foldl (fun s k => s.openClock p k) s).recalls = s.recalls ∧
    (l.foldl (fun s k => s.openClock p k) s).lanes = s.lanes :=
  ⟨foldl_keeps State.pending _ (fun s x => by simp) _ _,
    foldl_keeps State.running _ (fun s x => by simp) _ _,
    foldl_keeps State.straps _ (fun s x => by simp) _ _,
    foldl_keeps State.frame _ (fun s x => by simp) _ _,
    foldl_keeps State.ending _ (fun s x => by simp) _ _,
    foldl_keeps State.nvFault _ (fun s x => by simp) _ _,
    foldl_keeps State.ports _ (fun s x => by simp) _ _,
    foldl_keeps State.vote _ (fun s x => by simp) _ _,
    foldl_keeps State.insts _ (fun s x => by simp) _ _,
    foldl_keeps State.mem _ (fun s x => by simp) _ _,
    foldl_keeps State.alloc _ (fun s x => by simp) _ _,
    foldl_keeps State.integ _ (fun s x => by simp) _ _,
    foldl_keeps State.recalls _ (fun s x => by simp) _ _,
    foldl_keeps State.lanes _ (fun s x => by simp) _ _⟩

@[simp] theorem keeps_portClearRequest (s : State) (p : Port) :
    ((s.portClearRequest p).1).pending = s.pending ∧ ((s.portClearRequest p).1).running = s.running ∧
    ((s.portClearRequest p).1).straps = s.straps ∧ ((s.portClearRequest p).1).frame = s.frame ∧
    ((s.portClearRequest p).1).ending = s.ending ∧ ((s.portClearRequest p).1).nvFault = s.nvFault ∧
    ((s.portClearRequest p).1).ports = s.ports := by
  unfold State.portClearRequest; dsimp only; split <;> simp

@[simp] theorem keeps_readGroup (s : State) (faults : List GroupFault) (page : Nat) (mirror : Option Nat) (group : Nat) :
    ((readGroup faults s page mirror group).1).pending = s.pending ∧
    ((readGroup faults s page mirror group).1).running = s.running ∧
    ((readGroup faults s page mirror group).1).straps = s.straps ∧
    ((readGroup faults s page mirror group).1).frame = s.frame ∧
    ((readGroup faults s page mirror group).1).ending = s.ending ∧
    ((readGroup faults s page mirror group).1).nvFault = s.nvFault ∧
    ((readGroup faults s page mirror group).1).ports = s.ports ∧
    ((readGroup faults s page mirror group).1).vote = s.vote ∧
    ((readGroup faults s page mirror group).1).insts = s.insts ∧
    ((readGroup faults s page mirror group).1).alloc = s.alloc ∧
    ((readGroup faults s page mirror group).1).clocks = s.clocks ∧
    ((readGroup faults s page mirror group).1).recalls = s.recalls ∧
    ((readGroup faults s page mirror group).1).lanes = s.lanes := by
  unfold readGroup; (repeat' (first | split | dsimp only)) <;> simp

/-- The state after a touch keeps what the state before it had. -/
@[simp] theorem keeps_touch (faults : List GroupFault) (l : Line) (acc : State × GroupsRead) (n : Nat) :
    (touch faults l acc n).1.pending = acc.1.pending ∧
    (touch faults l acc n).1.running = acc.1.running ∧
    (touch faults l acc n).1.straps = acc.1.straps ∧
    (touch faults l acc n).1.frame = acc.1.frame ∧
    (touch faults l acc n).1.ending = acc.1.ending ∧
    (touch faults l acc n).1.nvFault = acc.1.nvFault ∧
    (touch faults l acc n).1.ports = acc.1.ports ∧
    (touch faults l acc n).1.vote = acc.1.vote ∧
    (touch faults l acc n).1.insts = acc.1.insts ∧
    (touch faults l acc n).1.alloc = acc.1.alloc ∧
    (touch faults l acc n).1.clocks = acc.1.clocks ∧
    (touch faults l acc n).1.recalls = acc.1.recalls ∧
    (touch faults l acc n).1.lanes = acc.1.lanes := by
  unfold touch; (repeat' (first | split | dsimp only)) <;> simp

@[simp] theorem keeps_touchAll (s : State) (faults : List GroupFault) (i : Inst) (reads : List LineRead) :
    ((touchAll faults i reads s).1).pending = s.pending ∧ ((touchAll faults i reads s).1).running = s.running ∧
    ((touchAll faults i reads s).1).straps = s.straps ∧ ((touchAll faults i reads s).1).frame = s.frame ∧
    ((touchAll faults i reads s).1).ending = s.ending ∧ ((touchAll faults i reads s).1).nvFault = s.nvFault ∧
    ((touchAll faults i reads s).1).ports = s.ports ∧ ((touchAll faults i reads s).1).vote = s.vote ∧
    ((touchAll faults i reads s).1).insts = s.insts ∧ ((touchAll faults i reads s).1).alloc = s.alloc ∧
    ((touchAll faults i reads s).1).clocks = s.clocks ∧ ((touchAll faults i reads s).1).recalls = s.recalls ∧
    ((touchAll faults i reads s).1).lanes = s.lanes := by
  unfold touchAll
  exact ⟨foldl_keeps (fun a : State × GroupsRead => a.1.pending) _ (fun a x => by
      split
      · rfl
      · exact foldl_keeps (fun a : State × GroupsRead => a.1.pending) _ (fun a d => by simp) _ _) _ _,
    foldl_keeps (fun a : State × GroupsRead => a.1.running) _ (fun a x => by
      split
      · rfl
      · exact foldl_keeps (fun a : State × GroupsRead => a.1.running) _ (fun a d => by simp) _ _) _ _,
    foldl_keeps (fun a : State × GroupsRead => a.1.straps) _ (fun a x => by
      split
      · rfl
      · exact foldl_keeps (fun a : State × GroupsRead => a.1.straps) _ (fun a d => by simp) _ _) _ _,
    foldl_keeps (fun a : State × GroupsRead => a.1.frame) _ (fun a x => by
      split
      · rfl
      · exact foldl_keeps (fun a : State × GroupsRead => a.1.frame) _ (fun a d => by simp) _ _) _ _,
    foldl_keeps (fun a : State × GroupsRead => a.1.ending) _ (fun a x => by
      split
      · rfl
      · exact foldl_keeps (fun a : State × GroupsRead => a.1.ending) _ (fun a d => by simp) _ _) _ _,
    foldl_keeps (fun a : State × GroupsRead => a.1.nvFault) _ (fun a x => by
      split
      · rfl
      · exact foldl_keeps (fun a : State × GroupsRead => a.1.nvFault) _ (fun a d => by simp) _ _) _ _,
    foldl_keeps (fun a : State × GroupsRead => a.1.ports) _ (fun a x => by
      split
      · rfl
      · exact foldl_keeps (fun a : State × GroupsRead => a.1.ports) _ (fun a d => by simp) _ _) _ _,
    foldl_keeps (fun a : State × GroupsRead => a.1.vote) _ (fun a x => by
      split
      · rfl
      · exact foldl_keeps (fun a : State × GroupsRead => a.1.vote) _ (fun a d => by simp) _ _) _ _,
    foldl_keeps (fun a : State × GroupsRead => a.1.insts) _ (fun a x => by
      split
      · rfl
      · exact foldl_keeps (fun a : State × GroupsRead => a.1.insts) _ (fun a d => by simp) _ _) _ _,
    foldl_keeps (fun a : State × GroupsRead => a.1.alloc) _ (fun a x => by
      split
      · rfl
      · exact foldl_keeps (fun a : State × GroupsRead => a.1.alloc) _ (fun a d => by simp) _ _) _ _,
    foldl_keeps (fun a : State × GroupsRead => a.1.clocks) _ (fun a x => by
      split
      · rfl
      · exact foldl_keeps (fun a : State × GroupsRead => a.1.clocks) _ (fun a d => by simp) _ _) _ _,
    foldl_keeps (fun a : State × GroupsRead => a.1.recalls) _ (fun a x => by
      split
      · rfl
      · exact foldl_keeps (fun a : State × GroupsRead => a.1.recalls) _ (fun a d => by simp) _ _) _ _,
    foldl_keeps (fun a : State × GroupsRead => a.1.lanes) _ (fun a x => by
      split
      · rfl
      · exact foldl_keeps (fun a : State × GroupsRead => a.1.lanes) _ (fun a d => by simp) _ _) _ _⟩

@[simp] theorem keeps_runInst (s : State) (f : FrameIn) (inputs : List Int) (slot : Nat) :
    (s.runInst f inputs slot).pending = s.pending ∧ (s.runInst f inputs slot).running = s.running ∧
    (s.runInst f inputs slot).straps = s.straps ∧ (s.runInst f inputs slot).frame = s.frame ∧
    (s.runInst f inputs slot).ending = s.ending ∧ (s.runInst f inputs slot).nvFault = s.nvFault ∧
    (s.runInst f inputs slot).ports = s.ports ∧ (s.runInst f inputs slot).vote = s.vote ∧
    (s.runInst f inputs slot).alloc = s.alloc ∧ (s.runInst f inputs slot).clocks = s.clocks ∧
    (s.runInst f inputs slot).recalls = s.recalls ∧ (s.runInst f inputs slot).lanes = s.lanes := by
  unfold State.runInst; (repeat' (first | split | dsimp only)) <;> simp

@[simp] theorem keeps_lfoWrap (s : State) (slot : Nat) :
    (s.lfoWrap slot).pending = s.pending ∧ (s.lfoWrap slot).running = s.running ∧
    (s.lfoWrap slot).straps = s.straps ∧ (s.lfoWrap slot).frame = s.frame ∧ (s.lfoWrap slot).ending = s.ending ∧
    (s.lfoWrap slot).nvFault = s.nvFault ∧ (s.lfoWrap slot).ports = s.ports ∧ (s.lfoWrap slot).vote = s.vote ∧
    (s.lfoWrap slot).mem = s.mem ∧ (s.lfoWrap slot).alloc = s.alloc ∧ (s.lfoWrap slot).integ = s.integ ∧
    (s.lfoWrap slot).clocks = s.clocks ∧ (s.lfoWrap slot).recalls = s.recalls ∧ (s.lfoWrap slot).lanes = s.lanes ∧
    (s.lfoWrap slot).notices = s.notices := by
  simp [State.lfoWrap]

@[simp] theorem keeps_sendsDeparted (s : State) (slot : Nat) (l : List Nat) :
    (l.foldl (fun s pos => s.sendDeparted slot pos) s).pending = s.pending ∧
    (l.foldl (fun s pos => s.sendDeparted slot pos) s).running = s.running ∧
    (l.foldl (fun s pos => s.sendDeparted slot pos) s).straps = s.straps ∧
    (l.foldl (fun s pos => s.sendDeparted slot pos) s).frame = s.frame ∧
    (l.foldl (fun s pos => s.sendDeparted slot pos) s).ending = s.ending ∧
    (l.foldl (fun s pos => s.sendDeparted slot pos) s).nvFault = s.nvFault ∧
    (l.foldl (fun s pos => s.sendDeparted slot pos) s).ports = s.ports ∧
    (l.foldl (fun s pos => s.sendDeparted slot pos) s).vote = s.vote ∧
    (l.foldl (fun s pos => s.sendDeparted slot pos) s).mem = s.mem ∧
    (l.foldl (fun s pos => s.sendDeparted slot pos) s).alloc = s.alloc ∧
    (l.foldl (fun s pos => s.sendDeparted slot pos) s).integ = s.integ ∧
    (l.foldl (fun s pos => s.sendDeparted slot pos) s).clocks = s.clocks ∧
    (l.foldl (fun s pos => s.sendDeparted slot pos) s).recalls = s.recalls ∧
    (l.foldl (fun s pos => s.sendDeparted slot pos) s).lanes = s.lanes ∧
    (l.foldl (fun s pos => s.sendDeparted slot pos) s).notices = s.notices :=
  ⟨foldl_keeps State.pending _ (fun s x => by simp) _ _,
    foldl_keeps State.running _ (fun s x => by simp) _ _,
    foldl_keeps State.straps _ (fun s x => by simp) _ _,
    foldl_keeps State.frame _ (fun s x => by simp) _ _,
    foldl_keeps State.ending _ (fun s x => by simp) _ _,
    foldl_keeps State.nvFault _ (fun s x => by simp) _ _,
    foldl_keeps State.ports _ (fun s x => by simp) _ _,
    foldl_keeps State.vote _ (fun s x => by simp) _ _,
    foldl_keeps State.mem _ (fun s x => by simp) _ _,
    foldl_keeps State.alloc _ (fun s x => by simp) _ _,
    foldl_keeps State.integ _ (fun s x => by simp) _ _,
    foldl_keeps State.clocks _ (fun s x => by simp) _ _,
    foldl_keeps State.recalls _ (fun s x => by simp) _ _,
    foldl_keeps State.lanes _ (fun s x => by simp) _ _,
    foldl_keeps State.notices _ (fun s x => by simp) _ _⟩

@[simp] theorem keeps_endSlot (s : State) (slot : Nat) :
    (s.endSlot slot).pending = s.pending ∧ (s.endSlot slot).running = s.running ∧
    (s.endSlot slot).straps = s.straps ∧ (s.endSlot slot).frame = s.frame ∧ (s.endSlot slot).ending = s.ending ∧
    (s.endSlot slot).nvFault = s.nvFault ∧ (s.endSlot slot).ports = s.ports ∧ (s.endSlot slot).vote = s.vote := by
  simp [State.endSlot]

@[simp] theorem keeps_startSlot (s : State) (slot : Nat) :
    (s.startSlot slot).pending = s.pending ∧ (s.startSlot slot).running = s.running ∧
    (s.startSlot slot).straps = s.straps ∧ (s.startSlot slot).frame = s.frame ∧
    (s.startSlot slot).ending = s.ending ∧ (s.startSlot slot).nvFault = s.nvFault ∧
    (s.startSlot slot).ports = s.ports ∧ (s.startSlot slot).vote = s.vote ∧ (s.startSlot slot).mem = s.mem ∧
    (s.startSlot slot).alloc = s.alloc ∧ (s.startSlot slot).integ = s.integ ∧ (s.startSlot slot).clocks = s.clocks ∧
    (s.startSlot slot).recalls = s.recalls ∧ (s.startSlot slot).lanes = s.lanes := by
  simp [State.startSlot]

/-- What acts on every occupied slot in order keeps what it keeps on one. -/
theorem overSlots_keeps {β : Type} (π : State → β) (f : State → Nat → State) (h : ∀ t k, π (f t k) = π t) (s : State) :
    π (s.overSlots f) = π s := by
  unfold State.overSlots
  exact foldl_keeps π _ (fun t k => by split <;> simp [h]) _ _

@[simp] theorem keeps_overInstancePrimed (s : State) :
    (s.overSlots State.instancePrimed).pending = s.pending ∧ (s.overSlots State.instancePrimed).running = s.running ∧
    (s.overSlots State.instancePrimed).straps = s.straps ∧ (s.overSlots State.instancePrimed).frame = s.frame ∧
    (s.overSlots State.instancePrimed).ending = s.ending ∧ (s.overSlots State.instancePrimed).nvFault = s.nvFault ∧
    (s.overSlots State.instancePrimed).ports = s.ports ∧ (s.overSlots State.instancePrimed).vote = s.vote ∧
    (s.overSlots State.instancePrimed).mem = s.mem ∧ (s.overSlots State.instancePrimed).alloc = s.alloc ∧
    (s.overSlots State.instancePrimed).integ = s.integ ∧ (s.overSlots State.instancePrimed).clocks = s.clocks ∧
    (s.overSlots State.instancePrimed).lanes = s.lanes := by
  exact ⟨overSlots_keeps State.pending _ (fun t k => by simp) _,
    overSlots_keeps State.running _ (fun t k => by simp) _,
    overSlots_keeps State.straps _ (fun t k => by simp) _,
    overSlots_keeps State.frame _ (fun t k => by simp) _,
    overSlots_keeps State.ending _ (fun t k => by simp) _,
    overSlots_keeps State.nvFault _ (fun t k => by simp) _,
    overSlots_keeps State.ports _ (fun t k => by simp) _,
    overSlots_keeps State.vote _ (fun t k => by simp) _,
    overSlots_keeps State.mem _ (fun t k => by simp) _,
    overSlots_keeps State.alloc _ (fun t k => by simp) _,
    overSlots_keeps State.integ _ (fun t k => by simp) _,
    overSlots_keeps State.clocks _ (fun t k => by simp) _,
    overSlots_keeps State.lanes _ (fun t k => by simp) _⟩

@[simp] theorem keeps_overEndSlot (s : State) :
    (s.overSlots State.endSlot).pending = s.pending ∧ (s.overSlots State.endSlot).running = s.running ∧
    (s.overSlots State.endSlot).straps = s.straps ∧ (s.overSlots State.endSlot).frame = s.frame ∧
    (s.overSlots State.endSlot).ending = s.ending ∧ (s.overSlots State.endSlot).nvFault = s.nvFault ∧
    (s.overSlots State.endSlot).ports = s.ports ∧ (s.overSlots State.endSlot).vote = s.vote := by
  exact ⟨overSlots_keeps State.pending _ (fun t k => by simp) _,
    overSlots_keeps State.running _ (fun t k => by simp) _,
    overSlots_keeps State.straps _ (fun t k => by simp) _,
    overSlots_keeps State.frame _ (fun t k => by simp) _,
    overSlots_keeps State.ending _ (fun t k => by simp) _,
    overSlots_keeps State.nvFault _ (fun t k => by simp) _,
    overSlots_keeps State.ports _ (fun t k => by simp) _,
    overSlots_keeps State.vote _ (fun t k => by simp) _⟩

@[simp] theorem keeps_overStartSlot (s : State) :
    (s.overSlots State.startSlot).pending = s.pending ∧ (s.overSlots State.startSlot).running = s.running ∧
    (s.overSlots State.startSlot).straps = s.straps ∧ (s.overSlots State.startSlot).frame = s.frame ∧
    (s.overSlots State.startSlot).ending = s.ending ∧ (s.overSlots State.startSlot).nvFault = s.nvFault ∧
    (s.overSlots State.startSlot).ports = s.ports ∧ (s.overSlots State.startSlot).vote = s.vote ∧
    (s.overSlots State.startSlot).mem = s.mem ∧ (s.overSlots State.startSlot).alloc = s.alloc ∧
    (s.overSlots State.startSlot).integ = s.integ ∧ (s.overSlots State.startSlot).clocks = s.clocks ∧
    (s.overSlots State.startSlot).recalls = s.recalls ∧ (s.overSlots State.startSlot).lanes = s.lanes := by
  exact ⟨overSlots_keeps State.pending _ (fun t k => by simp) _,
    overSlots_keeps State.running _ (fun t k => by simp) _,
    overSlots_keeps State.straps _ (fun t k => by simp) _,
    overSlots_keeps State.frame _ (fun t k => by simp) _,
    overSlots_keeps State.ending _ (fun t k => by simp) _,
    overSlots_keeps State.nvFault _ (fun t k => by simp) _,
    overSlots_keeps State.ports _ (fun t k => by simp) _,
    overSlots_keeps State.vote _ (fun t k => by simp) _,
    overSlots_keeps State.mem _ (fun t k => by simp) _,
    overSlots_keeps State.alloc _ (fun t k => by simp) _,
    overSlots_keeps State.integ _ (fun t k => by simp) _,
    overSlots_keeps State.clocks _ (fun t k => by simp) _,
    overSlots_keeps State.recalls _ (fun t k => by simp) _,
    overSlots_keeps State.lanes _ (fun t k => by simp) _⟩

@[simp] theorem keeps_waitLimit (s : State) (slot : Nat) :
    (s.waitLimit slot).pending = s.pending ∧ (s.waitLimit slot).running = s.running ∧
    (s.waitLimit slot).straps = s.straps ∧ (s.waitLimit slot).frame = s.frame ∧
    (s.waitLimit slot).ending = s.ending ∧ (s.waitLimit slot).nvFault = s.nvFault ∧
    (s.waitLimit slot).ports = s.ports ∧ (s.waitLimit slot).vote = s.vote ∧ (s.waitLimit slot).mem = s.mem ∧
    (s.waitLimit slot).integ = s.integ ∧ (s.waitLimit slot).clocks = s.clocks ∧ (s.waitLimit slot).lanes = s.lanes := by
  unfold State.waitLimit; split; split; split <;> simp [State.atFrameEnd]; all_goals simp

@[simp] theorem keeps_overWaitLimit (s : State) :
    (s.overSlots State.waitLimit).pending = s.pending ∧ (s.overSlots State.waitLimit).running = s.running ∧
    (s.overSlots State.waitLimit).straps = s.straps ∧ (s.overSlots State.waitLimit).frame = s.frame ∧
    (s.overSlots State.waitLimit).ending = s.ending ∧ (s.overSlots State.waitLimit).nvFault = s.nvFault ∧
    (s.overSlots State.waitLimit).ports = s.ports ∧ (s.overSlots State.waitLimit).vote = s.vote ∧
    (s.overSlots State.waitLimit).mem = s.mem ∧ (s.overSlots State.waitLimit).integ = s.integ ∧
    (s.overSlots State.waitLimit).clocks = s.clocks ∧ (s.overSlots State.waitLimit).lanes = s.lanes := by
  exact ⟨overSlots_keeps State.pending _ (fun t k => by simp) _,
    overSlots_keeps State.running _ (fun t k => by simp) _,
    overSlots_keeps State.straps _ (fun t k => by simp) _,
    overSlots_keeps State.frame _ (fun t k => by simp) _,
    overSlots_keeps State.ending _ (fun t k => by simp) _,
    overSlots_keeps State.nvFault _ (fun t k => by simp) _,
    overSlots_keeps State.ports _ (fun t k => by simp) _,
    overSlots_keeps State.vote _ (fun t k => by simp) _,
    overSlots_keeps State.mem _ (fun t k => by simp) _,
    overSlots_keeps State.integ _ (fun t k => by simp) _,
    overSlots_keeps State.clocks _ (fun t k => by simp) _,
    overSlots_keeps State.lanes _ (fun t k => by simp) _⟩

@[simp] theorem keeps_overEndInst (s : State) :
    (s.overSlots fun s k => s.modInst k endInst).pending = s.pending ∧
    (s.overSlots fun s k => s.modInst k endInst).running = s.running ∧
    (s.overSlots fun s k => s.modInst k endInst).straps = s.straps ∧
    (s.overSlots fun s k => s.modInst k endInst).frame = s.frame ∧
    (s.overSlots fun s k => s.modInst k endInst).ending = s.ending ∧
    (s.overSlots fun s k => s.modInst k endInst).nvFault = s.nvFault ∧
    (s.overSlots fun s k => s.modInst k endInst).ports = s.ports ∧
    (s.overSlots fun s k => s.modInst k endInst).vote = s.vote ∧
    (s.overSlots fun s k => s.modInst k endInst).mem = s.mem ∧
    (s.overSlots fun s k => s.modInst k endInst).alloc = s.alloc ∧
    (s.overSlots fun s k => s.modInst k endInst).integ = s.integ ∧
    (s.overSlots fun s k => s.modInst k endInst).clocks = s.clocks ∧
    (s.overSlots fun s k => s.modInst k endInst).recalls = s.recalls ∧
    (s.overSlots fun s k => s.modInst k endInst).lanes = s.lanes ∧
    (s.overSlots fun s k => s.modInst k endInst).notices = s.notices := by
  exact ⟨overSlots_keeps State.pending _ (fun t k => by simp) _,
    overSlots_keeps State.running _ (fun t k => by simp) _,
    overSlots_keeps State.straps _ (fun t k => by simp) _,
    overSlots_keeps State.frame _ (fun t k => by simp) _,
    overSlots_keeps State.ending _ (fun t k => by simp) _,
    overSlots_keeps State.nvFault _ (fun t k => by simp) _,
    overSlots_keeps State.ports _ (fun t k => by simp) _,
    overSlots_keeps State.vote _ (fun t k => by simp) _,
    overSlots_keeps State.mem _ (fun t k => by simp) _,
    overSlots_keeps State.alloc _ (fun t k => by simp) _,
    overSlots_keeps State.integ _ (fun t k => by simp) _,
    overSlots_keeps State.clocks _ (fun t k => by simp) _,
    overSlots_keeps State.recalls _ (fun t k => by simp) _,
    overSlots_keeps State.lanes _ (fun t k => by simp) _,
    overSlots_keeps State.notices _ (fun t k => by simp) _⟩

@[simp] theorem keeps_expireBank (s : State) (b : Nat) :
    (s.expireBank b).pending = s.pending ∧ (s.expireBank b).running = s.running ∧
    (s.expireBank b).straps = s.straps ∧ (s.expireBank b).frame = s.frame ∧ (s.expireBank b).ending = s.ending ∧
    (s.expireBank b).nvFault = s.nvFault ∧ (s.expireBank b).ports = s.ports ∧ (s.expireBank b).vote = s.vote ∧
    (s.expireBank b).insts = s.insts ∧ (s.expireBank b).alloc = s.alloc ∧ (s.expireBank b).integ = s.integ ∧
    (s.expireBank b).clocks = s.clocks ∧ (s.expireBank b).recalls = s.recalls ∧ (s.expireBank b).lanes = s.lanes ∧
    (s.expireBank b).notices = s.notices := by
  unfold State.expireBank
  split
  · exact ⟨foldl_keeps State.pending _ (fun s x => by simp) _ _,
      foldl_keeps State.running _ (fun s x => by simp) _ _,
      foldl_keeps State.straps _ (fun s x => by simp) _ _,
      foldl_keeps State.frame _ (fun s x => by simp) _ _,
      foldl_keeps State.ending _ (fun s x => by simp) _ _,
      foldl_keeps State.nvFault _ (fun s x => by simp) _ _,
      foldl_keeps State.ports _ (fun s x => by simp) _ _,
      foldl_keeps State.vote _ (fun s x => by simp) _ _,
      foldl_keeps State.insts _ (fun s x => by simp) _ _,
      foldl_keeps State.alloc _ (fun s x => by simp) _ _,
      foldl_keeps State.integ _ (fun s x => by simp) _ _,
      foldl_keeps State.clocks _ (fun s x => by simp) _ _,
      foldl_keeps State.recalls _ (fun s x => by simp) _ _,
      foldl_keeps State.lanes _ (fun s x => by simp) _ _,
      foldl_keeps State.notices _ (fun s x => by simp) _ _⟩
  · simp

@[simp] theorem keeps_takeEnded (s : State) :
    (s.takeEnded).pending = s.pending ∧ (s.takeEnded).running = s.running ∧ (s.takeEnded).straps = s.straps ∧
    (s.takeEnded).frame = s.frame ∧ (s.takeEnded).ending = s.ending ∧ (s.takeEnded).nvFault = s.nvFault := by
  simp [State.takeEnded, State.atFrameEnd, allPorts]

@[simp] theorem keeps_takeStarting (s : State) (faults : List GroupFault) :
    (s.takeStarting faults).pending = s.pending ∧ (s.takeStarting faults).running = s.running ∧
    (s.takeStarting faults).straps = s.straps ∧ (s.takeStarting faults).frame = s.frame ∧
    (s.takeStarting faults).ending = s.ending ∧ (s.takeStarting faults).nvFault = s.nvFault ∧
    (s.takeStarting faults).ports = s.ports ∧ (s.takeStarting faults).vote = s.vote := by
  simp [State.takeStarting]

@[simp] theorem keeps_countClip (s : State) (l : List (Nat × Int)) (chan : Nat) :
    (State.countClip l s chan).pending = s.pending ∧ (State.countClip l s chan).running = s.running ∧
    (State.countClip l s chan).straps = s.straps ∧ (State.countClip l s chan).frame = s.frame ∧
    (State.countClip l s chan).ending = s.ending ∧ (State.countClip l s chan).nvFault = s.nvFault ∧
    (State.countClip l s chan).ports = s.ports ∧ (State.countClip l s chan).vote = s.vote ∧
    (State.countClip l s chan).insts = s.insts ∧ (State.countClip l s chan).mem = s.mem ∧
    (State.countClip l s chan).alloc = s.alloc ∧ (State.countClip l s chan).integ = s.integ ∧
    (State.countClip l s chan).clocks = s.clocks ∧ (State.countClip l s chan).recalls = s.recalls ∧
    (State.countClip l s chan).notices = s.notices := by
  unfold State.countClip; (repeat' (first | split | dsimp only)) <;> simp

@[simp] theorem keeps_countClips (s : State) (c : List (Nat × Int)) (l : List Nat) :
    (l.foldl (State.countClip c) s).pending = s.pending ∧
    (l.foldl (State.countClip c) s).running = s.running ∧
    (l.foldl (State.countClip c) s).straps = s.straps ∧
    (l.foldl (State.countClip c) s).frame = s.frame ∧
    (l.foldl (State.countClip c) s).ending = s.ending ∧
    (l.foldl (State.countClip c) s).nvFault = s.nvFault ∧
    (l.foldl (State.countClip c) s).ports = s.ports ∧
    (l.foldl (State.countClip c) s).vote = s.vote ∧
    (l.foldl (State.countClip c) s).insts = s.insts ∧
    (l.foldl (State.countClip c) s).mem = s.mem ∧
    (l.foldl (State.countClip c) s).alloc = s.alloc ∧
    (l.foldl (State.countClip c) s).integ = s.integ ∧
    (l.foldl (State.countClip c) s).clocks = s.clocks ∧
    (l.foldl (State.countClip c) s).recalls = s.recalls ∧
    (l.foldl (State.countClip c) s).notices = s.notices :=
  ⟨foldl_keeps State.pending _ (fun s x => by simp) _ _,
    foldl_keeps State.running _ (fun s x => by simp) _ _,
    foldl_keeps State.straps _ (fun s x => by simp) _ _,
    foldl_keeps State.frame _ (fun s x => by simp) _ _,
    foldl_keeps State.ending _ (fun s x => by simp) _ _,
    foldl_keeps State.nvFault _ (fun s x => by simp) _ _,
    foldl_keeps State.ports _ (fun s x => by simp) _ _,
    foldl_keeps State.vote _ (fun s x => by simp) _ _,
    foldl_keeps State.insts _ (fun s x => by simp) _ _,
    foldl_keeps State.mem _ (fun s x => by simp) _ _,
    foldl_keeps State.alloc _ (fun s x => by simp) _ _,
    foldl_keeps State.integ _ (fun s x => by simp) _ _,
    foldl_keeps State.clocks _ (fun s x => by simp) _ _,
    foldl_keeps State.recalls _ (fun s x => by simp) _ _,
    foldl_keeps State.notices _ (fun s x => by simp) _ _⟩

@[simp] theorem keeps_formOutputs (s : State) :
    (s.formOutputs).pending = s.pending ∧ (s.formOutputs).running = s.running ∧ (s.formOutputs).straps = s.straps ∧
    (s.formOutputs).frame = s.frame ∧ (s.formOutputs).ending = s.ending ∧ (s.formOutputs).nvFault = s.nvFault ∧
    (s.formOutputs).ports = s.ports ∧ (s.formOutputs).vote = s.vote ∧ (s.formOutputs).insts = s.insts ∧
    (s.formOutputs).mem = s.mem ∧ (s.formOutputs).alloc = s.alloc ∧ (s.formOutputs).integ = s.integ ∧
    (s.formOutputs).clocks = s.clocks ∧ (s.formOutputs).recalls = s.recalls ∧ (s.formOutputs).notices = s.notices := by
  simp [State.formOutputs]

@[simp] theorem keeps_finishPass (s : State) :
    (s.finishPass).pending = s.pending ∧ (s.finishPass).running = s.running ∧ (s.finishPass).straps = s.straps ∧
    (s.finishPass).frame = s.frame ∧ (s.finishPass).ending = s.ending ∧ (s.finishPass).nvFault = s.nvFault ∧
    (s.finishPass).ports = s.ports ∧ (s.finishPass).vote = s.vote ∧ (s.finishPass).insts = s.insts ∧
    (s.finishPass).mem = s.mem ∧ (s.finishPass).alloc = s.alloc ∧ (s.finishPass).clocks = s.clocks ∧
    (s.finishPass).recalls = s.recalls ∧ (s.finishPass).lanes = s.lanes ∧ (s.finishPass).notices = s.notices := by
  unfold State.finishPass; (repeat' (first | split | dsimp only)) <;> simp

@[simp] theorem keeps_judgeLanes (s : State) (f : FrameIn) :
    (s.judgeLanes f).pending = s.pending ∧ (s.judgeLanes f).running = s.running ∧
    (s.judgeLanes f).straps = s.straps ∧ (s.judgeLanes f).frame = s.frame ∧ (s.judgeLanes f).ending = s.ending ∧
    (s.judgeLanes f).nvFault = s.nvFault ∧ (s.judgeLanes f).ports = s.ports ∧ (s.judgeLanes f).vote = s.vote ∧
    (s.judgeLanes f).insts = s.insts ∧ (s.judgeLanes f).mem = s.mem ∧ (s.judgeLanes f).alloc = s.alloc ∧
    (s.judgeLanes f).integ = s.integ ∧ (s.judgeLanes f).clocks = s.clocks ∧ (s.judgeLanes f).recalls = s.recalls ∧
    (s.judgeLanes f).notices = s.notices := by
  simp [State.judgeLanes]

@[simp] theorem keeps_tickVote (s : State) :
    (s.tickVote).pending = s.pending ∧ (s.tickVote).running = s.running ∧ (s.tickVote).straps = s.straps ∧
    (s.tickVote).frame = s.frame ∧ (s.tickVote).ending = s.ending ∧ (s.tickVote).nvFault = s.nvFault ∧
    (s.tickVote).ports = s.ports ∧ (s.tickVote).insts = s.insts ∧ (s.tickVote).mem = s.mem ∧
    (s.tickVote).alloc = s.alloc ∧ (s.tickVote).integ = s.integ ∧ (s.tickVote).clocks = s.clocks ∧
    (s.tickVote).recalls = s.recalls ∧ (s.tickVote).lanes = s.lanes ∧ (s.tickVote).notices = s.notices := by
  simp [State.tickVote]

@[simp] theorem keeps_tickInteg (s : State) :
    (s.tickInteg).pending = s.pending ∧ (s.tickInteg).running = s.running ∧ (s.tickInteg).straps = s.straps ∧
    (s.tickInteg).frame = s.frame ∧ (s.tickInteg).ending = s.ending ∧ (s.tickInteg).nvFault = s.nvFault ∧
    (s.tickInteg).ports = s.ports ∧ (s.tickInteg).vote = s.vote ∧ (s.tickInteg).insts = s.insts ∧
    (s.tickInteg).mem = s.mem ∧ (s.tickInteg).alloc = s.alloc ∧ (s.tickInteg).clocks = s.clocks ∧
    (s.tickInteg).recalls = s.recalls ∧ (s.tickInteg).lanes = s.lanes ∧ (s.tickInteg).notices = s.notices := by
  simp [State.tickInteg]

@[simp] theorem keeps_answerMalformed (s : State) (p : Port) :
    (s.answerMalformed p).pending = s.pending ∧ (s.answerMalformed p).running = s.running ∧
    (s.answerMalformed p).straps = s.straps ∧ (s.answerMalformed p).frame = s.frame ∧
    (s.answerMalformed p).ending = s.ending ∧ (s.answerMalformed p).nvFault = s.nvFault ∧
    (s.answerMalformed p).vote = s.vote ∧ (s.answerMalformed p).insts = s.insts ∧ (s.answerMalformed p).mem = s.mem ∧
    (s.answerMalformed p).alloc = s.alloc ∧ (s.answerMalformed p).integ = s.integ ∧
    (s.answerMalformed p).clocks = s.clocks ∧ (s.answerMalformed p).recalls = s.recalls ∧
    (s.answerMalformed p).lanes = s.lanes ∧ (s.answerMalformed p).notices = s.notices := by
  unfold State.answerMalformed State.takeNext; (repeat' (first | split | dsimp only)) <;> simp [State.refuse]

@[simp] theorem keeps_tickPorts (s : State) (f : FrameIn) :
    (s.tickPorts f).pending = s.pending ∧ (s.tickPorts f).running = s.running ∧ (s.tickPorts f).straps = s.straps ∧
    (s.tickPorts f).frame = s.frame ∧ (s.tickPorts f).ending = s.ending ∧ (s.tickPorts f).nvFault = s.nvFault ∧
    (s.tickPorts f).vote = s.vote ∧ (s.tickPorts f).insts = s.insts ∧ (s.tickPorts f).mem = s.mem ∧
    (s.tickPorts f).alloc = s.alloc ∧ (s.tickPorts f).integ = s.integ ∧ (s.tickPorts f).clocks = s.clocks ∧
    (s.tickPorts f).recalls = s.recalls ∧ (s.tickPorts f).lanes = s.lanes ∧ (s.tickPorts f).notices = s.notices := by
  unfold State.tickPorts
  exact ⟨foldl_keeps State.pending _ (fun s x => by simp) _ _,
    foldl_keeps State.running _ (fun s x => by simp) _ _,
    foldl_keeps State.straps _ (fun s x => by simp) _ _,
    foldl_keeps State.frame _ (fun s x => by simp) _ _,
    foldl_keeps State.ending _ (fun s x => by simp) _ _,
    foldl_keeps State.nvFault _ (fun s x => by simp) _ _,
    foldl_keeps State.vote _ (fun s x => by simp) _ _,
    foldl_keeps State.insts _ (fun s x => by simp) _ _,
    foldl_keeps State.mem _ (fun s x => by simp) _ _,
    foldl_keeps State.alloc _ (fun s x => by simp) _ _,
    foldl_keeps State.integ _ (fun s x => by simp) _ _,
    foldl_keeps State.clocks _ (fun s x => by simp) _ _,
    foldl_keeps State.recalls _ (fun s x => by simp) _ _,
    foldl_keeps State.lanes _ (fun s x => by simp) _ _,
    foldl_keeps State.notices _ (fun s x => by simp) _ _⟩

@[simp] theorem keeps_runInsts (s : State) (f : FrameIn) (inputs : List Int) (l : List Nat) :
    (l.foldl (fun s k => s.runInst f inputs k) s).pending = s.pending ∧
    (l.foldl (fun s k => s.runInst f inputs k) s).running = s.running ∧
    (l.foldl (fun s k => s.runInst f inputs k) s).straps = s.straps ∧
    (l.foldl (fun s k => s.runInst f inputs k) s).frame = s.frame ∧
    (l.foldl (fun s k => s.runInst f inputs k) s).ending = s.ending ∧
    (l.foldl (fun s k => s.runInst f inputs k) s).nvFault = s.nvFault ∧
    (l.foldl (fun s k => s.runInst f inputs k) s).ports = s.ports ∧
    (l.foldl (fun s k => s.runInst f inputs k) s).vote = s.vote ∧
    (l.foldl (fun s k => s.runInst f inputs k) s).alloc = s.alloc ∧
    (l.foldl (fun s k => s.runInst f inputs k) s).clocks = s.clocks ∧
    (l.foldl (fun s k => s.runInst f inputs k) s).recalls = s.recalls ∧
    (l.foldl (fun s k => s.runInst f inputs k) s).lanes = s.lanes :=
  ⟨foldl_keeps State.pending _ (fun s x => by simp) _ _,
    foldl_keeps State.running _ (fun s x => by simp) _ _,
    foldl_keeps State.straps _ (fun s x => by simp) _ _,
    foldl_keeps State.frame _ (fun s x => by simp) _ _,
    foldl_keeps State.ending _ (fun s x => by simp) _ _,
    foldl_keeps State.nvFault _ (fun s x => by simp) _ _,
    foldl_keeps State.ports _ (fun s x => by simp) _ _,
    foldl_keeps State.vote _ (fun s x => by simp) _ _,
    foldl_keeps State.alloc _ (fun s x => by simp) _ _,
    foldl_keeps State.clocks _ (fun s x => by simp) _ _,
    foldl_keeps State.recalls _ (fun s x => by simp) _ _,
    foldl_keeps State.lanes _ (fun s x => by simp) _ _⟩

@[simp] theorem keeps_frameBody (s : State) (f : FrameIn) :
    (s.frameBody f).pending = s.pending ∧ (s.frameBody f).running = s.running ∧ (s.frameBody f).straps = s.straps ∧
    (s.frameBody f).ending = s.ending ∧ (s.frameBody f).nvFault = s.nvFault ∧ (s.frameBody f).alloc = s.alloc ∧
    (s.frameBody f).recalls = s.recalls := by
  simp [State.frameBody]

/-- A frame moves the counter by one from the state its events leave (R159). -/
@[simp] theorem frameBody_frame (s : State) (f : FrameIn) : (s.frameBody f).frame = s.frame + 1 := by
  simp [State.frameBody]

end Sys2Proof.Machine
end

