-- ==== Sys2Proof/Laws/Memory.lean ====
section
/-! SUPPORT. The delay memory's lists: reading after writing, and that every operation keeps the one canonical form (R106,
R107): addresses rise strictly, and no entry is listed that an unlisted address reads as. -/
namespace Sys2Proof.Machine

/-! ## Lists in rising order -/

namespace Sparse

theorem find_insert {α : Type} (l : List (Nat × α)) (k j : Nat) (v : α) :
    find (insert l k v) j = if j = k then some v else find l j := by
  induction l with
  | nil => by_cases h : j = k <;> simp [insert, find, h, eq_comm] <;> omega
  | cons x t ih =>
    obtain ⟨a, w⟩ := x
    unfold insert
    by_cases e : a = k
    · simp only [if_pos e, find]
      by_cases h : j = k
      · simp [h]
      · subst e
        have h' : ¬a = j := fun x => h x.symm
        simp [h, h']
    · rw [if_neg e]
      by_cases l : k < a
      · simp only [if_pos l, find]
        by_cases h : j = k
        · simp [h]
        · rw [if_neg (by omega), if_neg h]
          split
          · rw [if_neg (by omega), if_pos (by omega)]
          · rfl
      · simp only [if_neg l, find, ih]
        by_cases h : j = k
        · rw [if_neg (by omega), if_neg (by omega), if_pos h, if_pos h]
        · simp [h]

theorem rising_weaken {α : Type} {l : List (Nat × α)} {j : Nat} (h : rising (some j) l) :
    rising none l ∧ ∀ lo, lo ≤ j → rising (some lo) l := by
  cases l with
  | nil => exact ⟨rfl, fun _ _ => rfl⟩
  | cons x t =>
    simp only [rising, Bool.and_eq_true, decide_eq_true_eq] at h ⊢
    exact ⟨h.2, fun lo hl => ⟨by omega, h.2⟩⟩

theorem find_below {α : Type} {l : List (Nat × α)} {j k : Nat} (h : rising (some j) l) (hk : k ≤ j) :
    find l k = none := by
  cases l with
  | nil => rfl
  | cons x t =>
    simp only [rising, Bool.and_eq_true, decide_eq_true_eq] at h
    simp only [find]
    rw [if_neg (by omega), if_pos (by omega)]

theorem rising_tail {α : Type} {o : Option Nat} {x : Nat × α} {t : List (Nat × α)} (h : rising o (x :: t)) :
    rising (some x.1) t := by
  cases o with
  | none => exact h
  | some lo => simp only [rising, Bool.and_eq_true] at h; exact h.2

theorem find_erase {α : Type} (l : List (Nat × α)) (k j : Nat) {o : Option Nat} (h : rising o l) :
    find (erase l k) j = if j = k then none else find l j := by
  induction l generalizing o with
  | nil => simp [erase, find]
  | cons x t ih =>
    have ht := rising_tail h
    obtain ⟨a, w⟩ := x
    unfold erase
    by_cases e : a = k
    · rw [if_pos e]
      by_cases h : j = k
      · rw [if_pos h]
        exact find_below ht (by simp only; omega)
      · simp only [find]
        rw [if_neg h, if_neg (by omega)]
        split
        · exact find_below ht (by simp only; omega)
        · rfl
    · rw [if_neg e]
      by_cases l : k < a
      · simp only [if_pos l, find]
        by_cases h : j = k
        · rw [if_neg (by omega), if_pos (by omega), if_pos h]
        · simp [h]
      · simp only [if_neg l, find, ih ht]
        by_cases h : j = k
        · rw [if_neg (by omega), if_neg (by omega), if_pos h, if_pos h]
        · simp [h]

/-- The order after an entry is set. -/
theorem rising_insert {α : Type} {l : List (Nat × α)} {k : Nat} {o : Option Nat} (v : α) (h : rising o l)
    (ho : ∀ lo, o = some lo → lo < k) : rising o (insert l k v) := by
  induction l generalizing o with
  | nil => cases o <;> simp_all [insert, rising]
  | cons x t ih =>
    have ht := rising_tail h
    obtain ⟨a, w⟩ := x
    unfold insert
    split
    · subst_vars; cases o <;> simp_all [rising]
    · split
      · cases o <;> simp_all [rising]
      · have := ih ht (by intro lo e; cases e; show a < k; omega)
        cases o <;> simp_all [rising]

/-- The order after an entry is taken out. -/
theorem rising_erase {α : Type} {l : List (Nat × α)} {k : Nat} {o : Option Nat} (h : rising o l) :
    rising o (erase l k) := by
  induction l generalizing o with
  | nil => exact h
  | cons x t ih =>
    have ht := rising_tail h
    obtain ⟨a, w⟩ := x
    unfold erase
    split
    · cases o with
      | none => exact (rising_weaken ht).1
      | some lo =>
        simp only [rising, Bool.and_eq_true, decide_eq_true_eq] at h
        exact (rising_weaken ht).2 lo (by simp only; omega)
    · split
      · exact h
      · have := ih ht
        cases o <;> simp_all [rising]

theorem mem_insert {α : Type} {l : List (Nat × α)} {k : Nat} {v : α} {c : Nat × α} (h : c ∈ insert l k v) :
    c = (k, v) ∨ c ∈ l := by
  induction l with
  | nil => simp_all [insert]
  | cons x t ih =>
    obtain ⟨a, w⟩ := x
    unfold insert at h
    split at h
    · simp only [List.mem_cons] at h ⊢; rcases h with h | h <;> simp [h]
    · split at h
      · simpa using h
      · simp only [List.mem_cons] at h ⊢
        rcases h with h | h
        · simp [h]
        · rcases ih h with h | h <;> simp [h]

theorem mem_erase {α : Type} {l : List (Nat × α)} {k : Nat} {c : Nat × α} (h : c ∈ erase l k) : c ∈ l := by
  induction l with
  | nil => simp [erase] at h
  | cons x t ih =>
    obtain ⟨a, w⟩ := x
    unfold erase at h
    split at h
    · simp [h]
    · split at h
      · exact h
      · simp only [List.mem_cons] at h ⊢
        rcases h with h | h
        · simp [h]
        · exact .inr (ih h)

theorem rising_filter {α : Type} {l : List (Nat × α)} (f : Nat × α → Bool) {o : Option Nat} (h : rising o l) :
    rising o (l.filter f) := by
  induction l generalizing o with
  | nil => exact h
  | cons x t ih =>
    have ht := rising_tail h
    rw [List.filter_cons]
    split
    · have := ih ht
      cases o <;> simp_all [rising]
    · cases o with
      | none => exact ih (rising_weaken ht).1
      | some lo =>
        simp only [rising, Bool.and_eq_true, decide_eq_true_eq] at h
        exact ih ((rising_weaken ht).2 lo (by omega))

/-- The canonical form of a list whose unlisted addresses read as `d` says. -/
def Canonical {α : Type} (d : Nat → α) (l : List (Nat × α)) : Prop := rising none l ∧ ∀ c, c ∈ l → c.2 ≠ d c.1

theorem canonical_put {α : Type} [DecidableEq α] {d : Nat → α} {l : List (Nat × α)} (k : Nat) (v : α)
    (h : Canonical d l) : Canonical d (put (d k) l k v) := by
  unfold put
  split
  · exact ⟨rising_erase h.1, fun c hc => h.2 c (mem_erase hc)⟩
  · refine ⟨rising_insert v h.1 (by simp), fun c hc => ?_⟩
    rcases mem_insert hc with e | e
    · subst e; assumption
    · exact h.2 c e

theorem canonical_filter {α : Type} {d : Nat → α} {l : List (Nat × α)} (f : Nat × α → Bool) (h : Canonical d l) :
    Canonical d (l.filter f) :=
  ⟨rising_filter f h.1, fun c hc => h.2 c (List.mem_filter.1 hc).1⟩

/-- Reading after writing in a canonical list. -/
theorem find_put {α : Type} [DecidableEq α] {d : Nat → α} {l : List (Nat × α)} (k j : Nat) (v : α)
    (h : Canonical d l) : (find (put (d k) l k v) j).getD (d j) = if j = k then v else (find l j).getD (d j) := by
  unfold put
  by_cases e : v = d k
  · rw [if_pos e, find_erase l k j h.1]
    by_cases x : j = k
    · simp [x, e]
    · simp [x]
  · rw [if_neg e, find_insert]
    by_cases x : j = k <;> simp [x]

end Sparse

/-! ## Samples and pages -/

theorem samplesWf_iff (m : DelayMem) : m.samplesWf = true ↔ Sparse.Canonical (fun _ => 0) m.samples := by
  simp [DelayMem.samplesWf, Sparse.Canonical]

theorem tableWf_iff (m : DelayMem) : m.tableWf = true ↔ Sparse.Canonical m.pageDefault m.table := by
  simp [DelayMem.tableWf, Sparse.Canonical]

/-- Both lists of a memory are canonical. -/
def DelayMem.wf (m : DelayMem) : Bool := m.samplesWf && m.tableWf

theorem wf_iff (m : DelayMem) :
    m.wf = true ↔ Sparse.Canonical (fun _ => 0) m.samples ∧ Sparse.Canonical m.pageDefault m.table := by
  rw [DelayMem.wf, Bool.and_eq_true, samplesWf_iff, tableWf_iff]

theorem canonical_iff_wf (s : State) : s.MemoryCanonical ↔ s.mem.wf = true := by
  rw [DelayMem.wf, Bool.and_eq_true]; rfl

namespace DelayMem

theorem sample_eq (m : DelayMem) (a : Nat) : m.sample a = (Sparse.find m.samples a).getD 0 := by
  unfold sample
  split <;> simp_all

theorem page_eq (m : DelayMem) (n : Nat) : m.page n = (Sparse.find m.table n).getD (m.pageDefault n) := by
  unfold page
  split <;> simp_all

/-- A sample read after a write (R113): the written value at its address where the bank is OK, the old one elsewhere. -/
theorem sample_write {m : DelayMem} (h : m.wf = true) (a b : Nat) (v : Int) :
    (m.write a v).sample b = if b = a ∧ m.bankFailed (pageBank (a / 1024)) = false then v else m.sample b := by
  rw [sample_eq, sample_eq]
  unfold write
  split
  · simp_all
  · have := Sparse.find_put (d := fun _ => (0 : Int)) a b v ((wf_iff m).1 h).1
    simp_all

/-- A page's state after it is set (R107). -/
theorem page_setPage {m : DelayMem} (h : m.wf = true) (n k : Nat) (x : PageState) :
    (m.setPage n x).page k = if k = n ∧ n < 8192 then x else m.page k := by
  rw [page_eq, page_eq]
  unfold setPage
  split
  · rename_i hn
    have := Sparse.find_put n k x ((wf_iff m).1 h).2
    rw [show ({ m with table := Sparse.put (m.pageDefault n) m.table n x } : DelayMem).pageDefault = m.pageDefault from
      rfl, this]
    simp [hn]
  · rename_i hn
    rw [if_neg (fun e => hn e.2)]

@[simp] theorem bankFailed_write (m : DelayMem) (a : Nat) (v : Int) (b : Nat) :
    (m.write a v).bankFailed b = m.bankFailed b := by
  unfold write
  split <;> rfl

@[simp] theorem bankFailed_setPage (m : DelayMem) (n : Nat) (x : PageState) (b : Nat) :
    (m.setPage n x).bankFailed b = m.bankFailed b := by
  unfold setPage
  split <;> rfl

/-- What only samples, spares, the priming queue or the list of failures change keeps the canonical form. -/
theorem wf_of_table {m n : DelayMem} (hs : Sparse.Canonical (fun _ => 0) n.samples) (ht : n.table = m.table)
    (hb : ∀ b, n.bankFailed b = m.bankFailed b) (h : m.wf = true) : n.wf = true := by
  have hd : n.pageDefault = m.pageDefault := by
    funext k
    simp [pageDefault, hb]
  rw [wf_iff, hd, ht]
  exact ⟨hs, ((wf_iff m).1 h).2⟩

@[simp] theorem wf_write {m : DelayMem} (h : m.wf = true) (a : Nat) (v : Int) : (m.write a v).wf = true := by
  refine wf_of_table (m := m) ?_ (by unfold write; split <;> rfl) (fun b => bankFailed_write m a v b) h
  have hc := ((wf_iff m).1 h).1
  unfold write
  split
  · exact hc
  · exact Sparse.canonical_put (d := fun _ => (0 : Int)) a v hc

@[simp] theorem wf_zeroPage {m : DelayMem} (h : m.wf = true) (page : Nat) : (m.zeroPage page).wf = true :=
  wf_of_table (m := m) (Sparse.canonical_filter _ ((wf_iff m).1 h).1) rfl (fun _ => rfl) h

@[simp] theorem wf_setPage {m : DelayMem} (h : m.wf = true) (n : Nat) (x : PageState) : (m.setPage n x).wf = true := by
  have hc := (wf_iff m).1 h
  unfold setPage
  split
  · rw [wf_iff]
    exact ⟨hc.1, Sparse.canonical_put n x hc.2⟩
  · exact h

/-- What every one of a fold's steps keeps. -/
theorem wf_foldl {α : Type} (f : DelayMem → α → DelayMem) (hf : ∀ n x, n.wf = true → (f n x).wf = true) (l : List α)
    {m : DelayMem} (h : m.wf = true) : (l.foldl f m).wf = true := by
  induction l generalizing m with
  | nil => exact h
  | cons x t ih => exact ih (hf m x h)

@[simp] theorem wf_copyGroup {m : DelayMem} (h : m.wf = true) (src dst group : Nat) : (m.copyGroup src dst group).wf = true :=
  wf_foldl _ (fun _ _ hn => wf_write hn _ _) _ h

@[simp] theorem wf_zeroGroup {m : DelayMem} (h : m.wf = true) (page group : Nat) : (m.zeroGroup page group).wf = true :=
  wf_foldl _ (fun _ _ hn => wf_write hn _ _) _ h

theorem wf_takeSpare {m n : DelayMem} {x : Option Nat} {p : Nat} (h : m.wf = true) (e : m.takeSpare x = some (p, n)) :
    n.wf = true := by
  unfold takeSpare at e
  split at e
  · cases e; exact h
  · cases e

end DelayMem

/-! ## Giving pages -/

theorem wf_givingPage {g : DelayMem.Giving} (h : g.mem.wf = true) (n : Nat) (x : Holder) :
    (g.page n x).mem.wf = true := by
  unfold DelayMem.Giving.page
  dsimp only
  split <;> exact DelayMem.wf_setPage h _ _

theorem wf_giveRotating (slot line left b : Nat) {g : DelayMem.Giving} (h : g.mem.wf = true) :
    (DelayMem.giveRotating slot line left b g).mem.wf = true := by
  induction left generalizing b g with
  | zero => exact h
  | succ n ih =>
    unfold DelayMem.giveRotating
    (repeat' split) <;> first | exact h | exact ih _ (wf_givingPage h _ _)

theorem wf_givePairs (slot line left : Nat) {g : DelayMem.Giving} (h : g.mem.wf = true) :
    (DelayMem.givePairs slot line left g).mem.wf = true := by
  induction left generalizing g with
  | zero => exact h
  | succ n ih =>
    unfold DelayMem.givePairs
    (repeat' split) <;> first | exact h | exact ih (wf_givingPage (wf_givingPage h _ _) _ _)

theorem wf_giveLines (slot : Nat) (mirrored : Bool) (ix : Nat) (caps : List Nat) {m : DelayMem} (h : m.wf = true) :
    (DelayMem.giveLines slot mirrored ix caps m).1.wf = true := by
  induction caps generalizing ix m with
  | nil => exact h
  | cons c t ih =>
    unfold DelayMem.giveLines
    refine ih _ ?_
    unfold DelayMem.giveLine
    dsimp only
    split
    · exact wf_givePairs _ _ _ h
    · split
      · exact wf_giveRotating _ _ _ _ h
      · exact h

/-! ## The memory set up, and after reset (R108) -/

theorem bankFailed_rebuild (m : DelayMem) (l : List Nat) (b : Nat) (h : b < 4) : (m.rebuild l).bankFailed b = false := by
  have : (m.rebuild l).banks = Vector.replicate 4 { failed := false, failures := [] } := rfl
  simp [DelayMem.bankFailed, this, h]

theorem samples_rebuild (m : DelayMem) (l : List Nat) : (m.rebuild l).samples = m.samples := rfl

theorem tableBuild_canonical (retired spares : List Nat) :
    Sparse.rising none (DelayMem.tableBuild retired spares) ∧
    ∀ c, c ∈ DelayMem.tableBuild retired spares → c.2 = .retired ∨ c.2 = .spare false := by
  have step : ∀ (x : PageState) (l : List Nat) (t : List (Nat × PageState)),
      (x = .retired ∨ x = .spare false) →
      (Sparse.rising none t ∧ ∀ c, c ∈ t → c.2 = .retired ∨ c.2 = .spare false) →
      Sparse.rising none (l.foldl (fun t p => Sparse.insert t p x) t) ∧
      ∀ c, c ∈ l.foldl (fun t p => Sparse.insert t p x) t → c.2 = .retired ∨ c.2 = .spare false := by
    intro x l
    induction l with
    | nil => intro t _ h; exact h
    | cons p ps ih =>
      intro t hx h
      refine ih _ hx ⟨Sparse.rising_insert _ h.1 (by simp), fun c hc => ?_⟩
      rcases Sparse.mem_insert hc with e | e
      · subst e; exact hx
      · exact h.2 c e
  exact step _ _ _ (.inr rfl) (step _ _ _ (.inl rfl) ⟨rfl, by simp⟩)

theorem wf_rebuild {m : DelayMem} (h : m.wf = true) (l : List Nat) : (m.rebuild l).wf = true := by
  rw [wf_iff]
  refine ⟨((wf_iff m).1 h).1, (tableBuild_canonical _ _).1, fun c hc e => ?_⟩
  have := (tableBuild_canonical _ _).2 c hc
  unfold DelayMem.pageDefault at e
  split at e <;> rw [e] at this <;> simp at this

end Sys2Proof.Machine
end

