-- ==== Sys2Proof/Laws/Canonical.lean ====
section
/-! SUPPORT. Every operation over the state keeps the delay memory's canonical form (R106, R107). -/
namespace Sys2Proof.Machine

/-- A fold of operations keeps what each of them keeps true. -/
theorem foldl_true {σ α : Type} (P : σ → Prop) (f : σ → α → σ) (h : ∀ s x, P s → P (f s x)) (l : List α) {s : σ}
    (hs : P s) : P (l.foldl f s) := by
  induction l generalizing s with
  | nil => exact hs
  | cons x t ih => exact ih (h s x hs)

theorem overSlots_true (P : State → Prop) (f : State → Nat → State) (h : ∀ t k, P t → P (f t k)) {s : State}
    (hs : P s) : P (s.overSlots f) := by
  unfold State.overSlots
  exact foldl_true P _ (fun t k ht => by split <;> simp_all) _ hs

@[simp] theorem mem_modMem (s : State) (f : DelayMem → DelayMem) : (s.modMem f).mem = f s.mem := rfl

/-- A change of spares, priming queue, clearing and failure lists alone. -/
theorem wf_sideChange {m n : DelayMem} (h : m.wf = true) (hs : n.samples = m.samples) (ht : n.table = m.table)
    (hb : ∀ b, n.bankFailed b = m.bankFailed b) : n.wf = true :=
  DelayMem.wf_of_table (m := m) (by rw [hs]; exact ((wf_iff m).1 h).1) ht hb h

theorem bankFailed_setBank (m : DelayMem) (b : Nat) (bk x : Bank) (h : m.banks[b]? = some bk) (hx : x.failed = bk.failed)
    (c : Nat) : ({ m with banks := m.banks.setIfInBounds b x } : DelayMem).bankFailed c = m.bankFailed c := by
  by_cases e : c = b
  · subst e
    have hl : c < 4 := by
      refine Nat.lt_of_not_le fun hk => ?_
      simp [Vector.getElem?_eq_none hk] at h
    simp [DelayMem.bankFailed, hl]
    rw [hx]
    simp [Vector.getElem?_eq_getElem hl] at h
    simp [h]
  · have e' : ¬b = c := fun x => e x.symm
    simp [DelayMem.bankFailed, e']

theorem bankFailed_failed (m : DelayMem) (b c : Nat) (fs : List Failure) :
    ({ m with banks := m.banks.setIfInBounds b { failed := true, failures := fs } } : DelayMem).bankFailed c =
      (m.bankFailed c || decide (c = b)) := by
  by_cases e : c = b
  · subst e
    by_cases hl : c < 4
    · simp [DelayMem.bankFailed, hl]
    · simp [DelayMem.bankFailed, Vector.getElem?_eq_none (Nat.le_of_not_lt hl)]
  · have e' : ¬b = c := fun x => e x.symm
    simp [DelayMem.bankFailed, e', e]

/-- A bank that becomes FAILED leaves a canonical table: what its unlisted pages read as changes from FREE to
WITHDRAWN, and no page is left listed as either (R118). -/
theorem wf_failBankMem {m : DelayMem} (h : m.wf = true) (b : Nat) (sp : List Nat) :
    ({ m with banks := m.banks.setIfInBounds b { failed := true, failures := [] },
              table := m.table.filter fun c =>
                !(decide (pageBank c.1 = b) && (c.2.isFree || c.2.isSpare || decide (c.2 = .withdrawn))),
              spares := sp } : DelayMem).wf = true := by
  have hc := (wf_iff m).1 h
  rw [wf_iff]
  refine ⟨hc.1, Sparse.rising_filter _ hc.2.1, fun c hm => ?_⟩
  rw [List.mem_filter] at hm
  have hd := hc.2.2 c hm.1
  have hb := bankFailed_failed m b (pageBank c.1) []
  unfold DelayMem.pageDefault at hd ⊢
  rw [show ∀ (t : List (Nat × PageState)), ({ m with banks := m.banks.setIfInBounds b { failed := true, failures := [] }, table := t, spares := sp } : DelayMem).bankFailed (pageBank c.1) = ({ m with banks := m.banks.setIfInBounds b { failed := true, failures := [] } } : DelayMem).bankFailed (pageBank c.1) from fun _ => rfl, hb]
  by_cases e : pageBank c.1 = b
  · simp [e] at hm ⊢
    exact hm.2.2
  · simpa [e] using hd

@[simp] theorem wf_failCopy {s : State} (h : s.mem.wf = true) (b : Nat) :
    (s.failCopy b).mem.wf = true := by
  unfold State.failCopy
  split
  · exact h
  · split
    · dsimp only
      split
      · simp [DelayMem.wf_setPage h]
      · simp only [keeps_modInteg, mem_modMem]
        exact wf_sideChange (m := s.mem.setPage _ _) (DelayMem.wf_setPage h _ _) rfl rfl fun _ => rfl
    · exact h

@[simp] theorem wf_failBank {s : State} (h : s.mem.wf = true) (b : Nat) :
    (s.failBank b).mem.wf = true := by
  unfold State.failBank
  dsimp only
  simp only [keeps_reportAll]
  refine wf_failCopy ?_ _
  simp only [keeps_modInteg, mem_modMem]
  exact wf_failBankMem h b _

@[simp] theorem wf_enterFailure {s : State} (h : s.mem.wf = true) (page group : Nat) :
    (s.enterFailure page group).mem.wf = true := by
  unfold State.enterFailure
  split
  · exact h
  · rename_i bk hb
    split
    · exact h
    · dsimp only
      split
      · exact wf_failBank h _
      · simp only [mem_modMem]
        exact wf_sideChange h rfl rfl (bankFailed_setBank _ _ bk _ hb rfl)

@[simp] theorem wf_retirePage {s : State} (h : s.mem.wf = true) (page : Nat) :
    (s.retirePage page).mem.wf = true := by
  simp [State.retirePage, DelayMem.wf_setPage h]

@[simp] theorem wf_exhausted {s : State} (h : s.mem.wf = true) (page : Nat) :
    (s.exhausted page).mem.wf = true := by
  simpa using h

@[simp] theorem wf_retireFree {s : State} (h : s.mem.wf = true) (page : Nat) :
    (s.retireFree page).mem.wf = true := by
  unfold State.retireFree
  split
  · simpa using h
  · rename_i sp m e
    simp only [keeps_reportAll]
    exact wf_retirePage (DelayMem.wf_setPage (DelayMem.wf_takeSpare h e) _ _) _

@[simp] theorem wf_requestRetirement {s : State} (h : s.mem.wf = true) (page : Nat) :
    (s.requestRetirement page).mem.wf = true := by
  unfold State.requestRetirement
  dsimp only
  (repeat' split) <;> first | exact h | (simp; done) | (exact wf_retireFree (by simpa using h) _) | simpa using h

@[simp] theorem wf_watchCount {s : State} (h : s.mem.wf = true) (page : Nat) :
    (s.watchCount page).mem.wf = true := by
  unfold State.watchCount; (repeat' (first | split | dsimp only)) <;> simp_all

@[simp] theorem wf_countCorrected {s : State} (h : s.mem.wf = true) (page : Nat) :
    (s.countCorrected page).mem.wf = true := by
  unfold State.countCorrected; (repeat' (first | split | dsimp only)) <;> simp_all

@[simp] theorem wf_corrected {s : State} (h : s.mem.wf = true) (page : Nat) :
    (s.corrected page).mem.wf = true := by
  simp [State.corrected, h]

@[simp] theorem wf_uncorrectable {s : State} (h : s.mem.wf = true) (page group : Nat) (rescued : Bool) :
    (s.uncorrectable page group rescued).mem.wf = true := by
  simp [State.uncorrectable, h]

@[simp] theorem wf_startCopy {s : State} (h : s.mem.wf = true) :
    (s.startCopy).mem.wf = true := by
  unfold State.startCopy
  split
  · split
    · exact h
    · dsimp only
      split
      · simpa using h
      · split
        · simpa using h
        · rename_i e
          exact DelayMem.wf_setPage (DelayMem.wf_takeSpare (by simpa using h) e) _ _
  · exact h

@[simp] theorem wf_modCopyGroup {s : State} (h : s.mem.wf = true) (a b g : Nat) :
    (s.modMem fun m => m.copyGroup a b g).mem.wf = true := by
  exact DelayMem.wf_copyGroup h _ _ _

@[simp] theorem wf_modZeroGroup {s : State} (h : s.mem.wf = true) (b g : Nat) :
    (s.modMem fun m => m.zeroGroup b g).mem.wf = true := by
  exact DelayMem.wf_zeroGroup h _ _

@[simp] theorem wf_modZeroTwo {s : State} (h : s.mem.wf = true) (a b g : Nat) :
    (s.modMem fun m => (m.zeroGroup a g).zeroGroup b g).mem.wf = true := by
  exact DelayMem.wf_zeroGroup (DelayMem.wf_zeroGroup h _ _) _ _

@[simp] theorem wf_modSetPage {s : State} (h : s.mem.wf = true) (a : Nat) (x : PageState) :
    (s.modMem fun m => m.setPage a x).mem.wf = true := by
  exact DelayMem.wf_setPage h _ _

@[simp] theorem wf_modZeroPage {s : State} (h : s.mem.wf = true) (a b : Nat) (x : PageState) :
    (s.modMem fun m => (m.zeroPage a).setPage b x).mem.wf = true := by
  exact DelayMem.wf_setPage (DelayMem.wf_zeroPage h _) _ _

@[simp] theorem wf_modPriming {s : State} (h : s.mem.wf = true) (f : DelayMem → List (Nat × Nat)) :
    (s.modMem fun m => { m with priming := f m }).mem.wf = true := by
  exact wf_sideChange h rfl rfl fun _ => rfl

@[simp] theorem wf_modSpares {s : State} (h : s.mem.wf = true) (f : DelayMem → List Nat) :
    (s.modMem fun m => { m with spares := f m }).mem.wf = true := by
  exact wf_sideChange h rfl rfl fun _ => rfl

@[simp] theorem wf_askAgain {s : State} (h : s.mem.wf = true) (page : Nat) (x : GroupOutcome) :
    (s.askAgain page x).mem.wf = true := by
  unfold State.askAgain; split <;> simp_all

@[simp] theorem wf_readPartner {s : State} (h : s.mem.wf = true) (faults : List GroupFault) (c : Copy) (group : Nat) :
    (s.readPartner faults c group).1.mem.wf = true := by
  unfold State.readPartner; split <;> simp_all

@[simp] theorem wf_copyOneGroup {s : State} (h : s.mem.wf = true) (faults : List GroupFault) (c : Copy) (group : Nat) :
    (s.copyOneGroup faults c group).mem.wf = true := by
  unfold State.copyOneGroup
  dsimp only
  split
  · exact wf_modCopyGroup h _ _ _
  · exact wf_modCopyGroup h _ _ _
  · simp only [keeps_reportOwner]
    refine wf_enterFailure ?_ _ _
    simp only [mem_modMem]
    have hr := wf_readPartner h faults c group
    split
    · exact DelayMem.wf_copyGroup hr _ _ _
    · exact DelayMem.wf_zeroGroup hr _ _

@[simp] theorem wf_copyFrame {s : State} (h : s.mem.wf = true) (faults : List GroupFault) :
    (s.copyFrame faults).mem.wf = true := by
  unfold State.copyFrame
  split
  · exact h
  · split
    · exact h
    · dsimp only
      rename_i c _ _
      have hf : (List.foldl (fun s k =>
          if s.integ.copy = some c then s.copyOneGroup faults c (8 * (c.pos - 1) + k) else s) s
          (List.range 8)).mem.wf = true :=
        foldl_true (fun t : State => t.mem.wf = true) _ (fun t k ht => by split <;> simp_all) _ h
      split <;> simpa using hf

@[simp] theorem wf_completeCopy {s : State} (h : s.mem.wf = true) :
    (s.completeCopy).mem.wf = true := by
  unfold State.completeCopy
  split
  · exact h
  · split
    · exact h
    · simp only [keeps_reportOwner, keeps_modInteg]
      exact wf_retirePage (by simp [DelayMem.wf_setPage h]) _

@[simp] theorem wf_takeBackPlain {s : State} (h : s.mem.wf = true) (page : Nat) :
    (s.takeBackPlain page).mem.wf = true := by
  unfold State.takeBackPlain
  dsimp only
  split
  · exact wf_retireFree (by simp [DelayMem.wf_setPage h]) _
  · exact wf_modSetPage h _ _

@[simp] theorem wf_takeBackSource {s : State} (h : s.mem.wf = true) (c : Copy) :
    (s.takeBackSource c).mem.wf = true := by
  simp only [State.takeBackSource, keeps_reportAll]
  exact wf_retirePage (by simp [DelayMem.wf_setPage h]) _

@[simp] theorem wf_takeBackPage {s : State} (h : s.mem.wf = true) (page : Nat) :
    (s.takeBackPage page).mem.wf = true := by
  unfold State.takeBackPage
  have h' := wf_modPriming h fun m => m.priming.filter fun q => decide (q.1 ≠ page)
  dsimp only at h' ⊢
  split
  · simp only [keeps_modInteg]
    exact wf_modSetPage h' _ _
  · split
    · split
      · exact wf_takeBackSource h' _
      · exact wf_takeBackPlain h' _
    · exact wf_takeBackPlain h' _

@[simp] theorem wf_scrubAllocated {s : State} (h : s.mem.wf = true) (faults : List GroupFault) (x : Holder) (page group : Nat) :
    (s.scrubAllocated faults x page group).mem.wf = true := by
  unfold State.scrubAllocated
  split
  · exact h
  · exact wf_corrected h _
  · split
    · exact wf_uncorrectable (wf_modZeroGroup h _ _) _ _ _
    · split
      · exact wf_uncorrectable (wf_modCopyGroup h _ _ _) _ _ _
      · exact wf_corrected (wf_uncorrectable (wf_modCopyGroup h _ _ _) _ _ _) _
      · dsimp only
        split
        · exact wf_uncorrectable (wf_modZeroTwo h _ _ _) _ _ _
        · exact wf_uncorrectable (wf_uncorrectable (wf_modZeroTwo h _ _ _) _ _ _) _ _ _

@[simp] theorem wf_scrubFree {s : State} (h : s.mem.wf = true) (faults : List GroupFault) (page group : Nat) :
    (s.scrubFree faults page group).mem.wf = true := by
  unfold State.scrubFree
  split
  · exact h
  · exact wf_corrected h _
  · exact wf_uncorrectable (wf_modZeroGroup h _ _) _ _ _

@[simp] theorem wf_scrubSpare {s : State} (h : s.mem.wf = true) (faults : List GroupFault) (page group : Nat) :
    (s.scrubSpare faults page group).mem.wf = true := by
  unfold State.scrubSpare
  dsimp only
  (repeat' split)
  · exact h
  · simpa using h
  · simp only [keeps_reportAll]
    exact wf_modSpares (wf_enterFailure (wf_modZeroGroup h _ _) _ _) _

theorem wf_scrubGroups {s : State} (h : s.mem.wf = true) (page : Nat) (one : State → Nat → State)
    (ho : ∀ t g, t.mem.wf = true → (one t g).mem.wf = true) : (s.scrubGroups page one).mem.wf = true := by
  unfold State.scrubGroups
  exact foldl_true (fun t : State => t.mem.wf = true) _ (fun t g ht => by split <;> simp_all) _ h

@[simp] theorem wf_scrubPageVisit {s : State} (h : s.mem.wf = true) (faults : List GroupFault) (page : Nat) :
    (s.scrubPageVisit faults page).mem.wf = true := by
  unfold State.scrubPageVisit
  dsimp only
  split
  · simpa using DelayMem.wf_setPage (DelayMem.wf_zeroPage h _) _ _
  · simpa using DelayMem.wf_setPage (DelayMem.wf_zeroPage h _) _ _
  · simpa using wf_scrubGroups h page _ fun t g ht => wf_scrubFree ht _ _ _
  · simpa using wf_scrubGroups h page _ fun t g ht => wf_scrubSpare ht _ _ _
  · split
    · exact h
    · simpa using wf_scrubGroups h page _ fun t g ht => wf_scrubAllocated ht _ _ _ _
  · exact h
  · exact h
  · exact h

@[simp] theorem wf_scrub {s : State} (h : s.mem.wf = true) (faults : List GroupFault) :
    (s.scrub faults).mem.wf = true := by
  unfold State.scrub
  dsimp only
  (repeat' split) <;> first | exact h | simpa using h | exact wf_scrubPageVisit (by simpa using h) _ _

@[simp] theorem wf_expireFailure {s : State} (h : s.mem.wf = true) (page group : Nat) :
    (s.expireFailure page group).mem.wf = true := by
  unfold State.expireFailure
  split
  · exact h
  · rename_i bk hb
    simp only [mem_modMem]
    exact wf_sideChange h rfl rfl (bankFailed_setBank _ _ bk _ hb rfl)

theorem wf_clearPages (n : Nat) {m : DelayMem} (h : m.wf = true) : (State.clearPages n m).wf = true := by
  have hf : ((m.priming.take n).foldl (fun m q => if m.bankFailed (pageBank q.1) then m else m.zeroPage q.1) m).wf =
      true :=
    DelayMem.wf_foldl _ (fun n q hn => by split; exact hn; exact DelayMem.wf_zeroPage hn _) _ h
  unfold State.clearPages
  dsimp only
  generalize (m.priming.take n).foldl (fun m q => if m.bankFailed (pageBank q.1) then m else m.zeroPage q.1) m = m' at *
  exact wf_sideChange hf rfl rfl fun _ => rfl

@[simp] theorem wf_pageClear {s : State} (h : s.mem.wf = true) (n : Nat) :
    (s.pageClear n).mem.wf = true := by
  simpa [State.pageClear] using wf_clearPages n h

theorem wf_queueAtEnd (s : State) (dirty : List (Nat × Nat)) {m : DelayMem} (h : m.wf = true) :
    (s.queueAtEnd dirty m).wf = true := by
  unfold State.queueAtEnd
  dsimp only
  refine wf_sideChange (wf_clearPages m.clearLeft (m := { m with priming := _ }) ?_) rfl rfl fun _ => rfl
  exact wf_sideChange h rfl rfl fun _ => rfl

@[simp] theorem wf_setUp {s : State} (h : s.mem.wf = true) (slot : Nat) (base : Inst) :
    (s.setUp slot base).mem.wf = true := by
  have hg := wf_giveLines slot base.choice.mirror 0 (lineCapacities s.rate base.choice) h
  unfold State.setUp
  dsimp only
  split
  · simpa using wf_queueAtEnd _ _ hg
  · exact wf_sideChange hg rfl rfl fun _ => rfl

@[simp] theorem wf_setUpItem {s : State} (h : s.mem.wf = true) (slot : Nat) (base : Inst) (k : Kept) :
    (s.setUpItem slot base k).mem.wf = true := by
  simp [State.setUpItem, h]

@[simp] theorem wf_offerSlot {s : State} (h : s.mem.wf = true) (slot : Nat) :
    (s.offerSlot slot).mem.wf = true := by
  unfold State.offerSlot; (repeat' (first | split | dsimp only)) <;> simp_all

@[simp] theorem wf_offerResources {s : State} (h : s.mem.wf = true) :
    (s.offerResources).mem.wf = true := by
  unfold State.offerResources
  exact foldl_true (fun t : State => t.mem.wf = true) _ (fun t k ht => wf_offerSlot ht k) _ h

@[simp] theorem wf_takeBacks {s : State} (h : s.mem.wf = true) (l : List Nat) :
    (l.foldl State.takeBackPage s).mem.wf = true := by
  exact foldl_true (fun t : State => t.mem.wf = true) _ (fun t k ht => wf_takeBackPage ht k) _ h

@[simp] theorem wf_freeInst {s : State} (h : s.mem.wf = true) (slot : Nat) (i : Inst) (why : Option FreeReason) :
    (s.freeInst slot i why).mem.wf = true := by
  unfold State.freeInst; dsimp only; (repeat' split) <;> simp_all

@[simp] theorem wf_release {s : State} (h : s.mem.wf = true) (slot : Nat) (i : Inst) (mode : RelMode) (n : Nat) :
    (s.release slot i mode n).mem.wf = true := by
  unfold State.release; (repeat' split) <;> simp_all

@[simp] theorem wf_drainQuiet {s : State} (h : s.mem.wf = true) (slot : Nat) :
    (s.drainQuiet slot).mem.wf = true := by
  unfold State.drainQuiet; (repeat' split) <;> simp_all

@[simp] theorem wf_fadeComplete {s : State} (h : s.mem.wf = true) (slot : Nat) :
    (s.fadeComplete slot).mem.wf = true := by
  unfold State.fadeComplete; (repeat' split) <;> simp_all

@[simp] theorem wf_handOver {s : State} (h : s.mem.wf = true) (slot : Nat) (i : Inst) (q : Port) :
    (s.handOver slot i q).mem.wf = true := by
  unfold State.handOver; dsimp only; (repeat' split) <;> simp_all

@[simp] theorem wf_passRelease {s : State} (h : s.mem.wf = true) (p : Port) (ramp n : Nat) (item : RecallItem) :
    (s.passRelease p ramp n item).mem.wf = true := by
  unfold State.passRelease; dsimp only; (repeat' split) <;> simp_all

@[simp] theorem wf_passCharge {s : State} (h : s.mem.wf = true) (p : Port) (number : Nat) (x : Nat × CreateForm × Kept) :
    (s.passCharge p number x).mem.wf = true := by
  unfold State.passCharge; dsimp only; (repeat' split) <;> simp_all

@[simp] theorem wf_applyRecord {s : State} (h : s.mem.wf = true) (p : Port) (r : Record) :
    (s.applyRecord p r).mem.wf = true := by
  unfold State.applyRecord
  dsimp only
  simp only [keeps_settleTest, keeps_modRecord]
  refine foldl_true (fun t : State => t.mem.wf = true) _ (fun t x ht => wf_passCharge ht _ _ _) _ ?_
  simp only [keeps_passSets]
  refine foldl_true (fun t : State => t.mem.wf = true) _ (fun t x ht => wf_passRelease ht _ _ _ _) _ ?_
  simpa using h

@[simp] theorem wf_applyArmed {s : State} (h : s.mem.wf = true) (clock : Nat) (beat bar : Bool) :
    (s.applyArmed clock beat bar).mem.wf = true := by
  unfold State.applyArmed
  exact foldl_true (fun t : State => t.mem.wf = true) _ (fun t p ht => by (repeat' split) <;> simp_all) _ h

@[simp] theorem wf_deliver {s : State} (h : s.mem.wf = true) (clock : Nat) (beat bar : Bool) :
    (s.deliver clock beat bar).mem.wf = true := by
  simp [State.deliver, h]

@[simp] theorem wf_tapClock {s : State} (h : s.mem.wf = true) (k : Nat) (source : TempoSource) :
    ((s.tapClock k source).1).mem.wf = true := by
  unfold State.tapClock; dsimp only; (repeat' split) <;> simp_all

@[simp] theorem wf_tapEdge {s : State} (h : s.mem.wf = true) :
    (s.tapEdge).mem.wf = true := by
  unfold State.tapEdge; split <;> simp_all

@[simp] theorem wf_beatEvent {s : State} (h : s.mem.wf = true) (k : Nat) :
    (s.beatEvent k).mem.wf = true := by
  unfold State.beatEvent; (repeat' split) <;> simp_all

@[simp] theorem wf_clearPriming {s : State} (h : s.mem.wf = true) (k : Nat) :
    (s.clearPriming k).mem.wf = true := by
  unfold State.clearPriming; split <;> simp_all

@[simp] theorem wf_portClearRequest {s : State} (h : s.mem.wf = true) (p : Port) :
    ((s.portClearRequest p).1).mem.wf = true := by
  unfold State.portClearRequest
  dsimp only
  simp only [keeps_leaveVote, keeps_openClocks, keeps_releaseChannels, keeps_clearFadings]
  refine foldl_true (fun t : State => t.mem.wf = true) _ (fun t k ht => wf_clearPriming ht k) _ ?_
  split <;> simpa using h

@[simp] theorem wf_engineStart {s : State} (h : s.mem.wf = true) (x : Straps) (nv : Option NvImage) :
    (s.engineStart x nv).mem.wf = true := by
  unfold State.engineStart
  dsimp only
  generalize nvReadable _ = b
  cases b
  · simp only [Bool.false_eq_true, if_false, keeps_reportAll]
    exact wf_rebuild h _
  · simp only [if_true]
    exact wf_rebuild h _

@[simp] theorem wf_engineRestart {s : State} (h : s.mem.wf = true) :
    (s.engineRestart).mem.wf = true := by
  unfold State.engineRestart
  split
  · exact h
  · simp only [allPorts, List.foldl, keeps_raiseUp]
    exact wf_rebuild h _

@[simp] theorem wf_readGroup {s : State} (h : s.mem.wf = true) (faults : List GroupFault) (page : Nat) (mirror : Option Nat) (group : Nat) :
    ((readGroup faults s page mirror group).1).mem.wf = true := by
  unfold readGroup
  dsimp only
  split
  · exact h
  · exact wf_corrected h _
  · split
    · dsimp only
      split
      · exact h
      · exact wf_uncorrectable h _ _ _
    · rename_i q
      have hc := wf_modCopyGroup h q page group
      split
      · dsimp only
        split
        · exact hc
        · exact wf_uncorrectable hc _ _ _
      · dsimp only
        refine wf_corrected ?_ _
        split
        · exact hc
        · exact wf_uncorrectable hc _ _ _
      · dsimp only
        have h' : (if s.mem.bankFailed (pageBank page) = true then s else s.uncorrectable page group false).mem.wf =
            true := by
          split
          · exact h
          · exact wf_uncorrectable h _ _ _
        split
        · exact h'
        · exact wf_uncorrectable h' _ _ _

theorem wf_touch (faults : List GroupFault) (l : Line) {acc : State × GroupsRead} (h : acc.1.mem.wf = true) (n : Nat) :
    (touch faults l acc n).1.mem.wf = true := by
  unfold touch
  (repeat' (first | split | dsimp only)) <;> simp_all

@[simp] theorem wf_touchAll {s : State} (h : s.mem.wf = true) (faults : List GroupFault) (i : Inst) (reads : List LineRead) :
    ((touchAll faults i reads s).1).mem.wf = true := by
  unfold touchAll
  refine foldl_true (fun a : State × GroupsRead => a.1.mem.wf = true) _ (fun a x ha => ?_) _ h
  split
  · exact ha
  · exact foldl_true (fun a : State × GroupsRead => a.1.mem.wf = true) _
      (fun a d ha => wf_touch _ _ (wf_touch _ _ ha _) _) _ ha

theorem wf_writeLine (copy : Option Copy) (l : Line) (v : Int) {m : DelayMem} (h : m.wf = true) :
    (writeLine copy m l v).wf = true := by
  unfold writeLine
  dsimp only
  (repeat' split) <;> first | exact h | (repeat (first | exact h | refine DelayMem.wf_write ?_ _ _))

@[simp] theorem wf_runInst {s : State} (h : s.mem.wf = true) (f : FrameIn) (inputs : List Int) (slot : Nat) :
    (s.runInst f inputs slot).mem.wf = true := by
  unfold State.runInst
  split
  · exact h
  · split
    · dsimp only
      split <;> simp only [keeps_report, keeps_setInst, mem_modMem] <;>
        exact DelayMem.wf_foldl _ (fun n x hn => wf_writeLine _ _ _ hn) _ (wf_touchAll h _ _ _)
    · exact h

@[simp] theorem wf_endSlot {s : State} (h : s.mem.wf = true) (slot : Nat) :
    (s.endSlot slot).mem.wf = true := by
  simp [State.endSlot, h]

@[simp] theorem wf_takeStarting {s : State} (h : s.mem.wf = true) (faults : List GroupFault) :
    (s.takeStarting faults).mem.wf = true := by
  unfold State.takeStarting
  dsimp only
  refine wf_scrub ?_ _
  simp only [keeps_startAppend]
  refine wf_startCopy ?_
  simp only [keeps_overStartSlot, List.foldl]
  refine wf_beatEvent (wf_beatEvent (wf_beatEvent (wf_beatEvent ?_ _) _) _) _
  simpa using h

@[simp] theorem wf_expireBank {s : State} (h : s.mem.wf = true) (b : Nat) :
    (s.expireBank b).mem.wf = true := by
  unfold State.expireBank
  split
  · exact foldl_true (fun t : State => t.mem.wf = true) _ (fun t x ht => wf_expireFailure ht _ _) _ h
  · exact h

@[simp] theorem wf_takeEnded {s : State} (h : s.mem.wf = true) :
    (s.takeEnded).mem.wf = true := by
  unfold State.takeEnded
  simp only [allPorts, List.foldl, keeps_linkGoesDown, keeps_linkComesUp, keeps_dropVote]
  refine wf_expireBank (wf_expireBank (wf_expireBank (wf_expireBank ?_ _) _) _) _
  simp only [keeps_lapseTap, keeps_overWaitLimit, State.atFrameEnd, keeps_overInstancePrimed]
  refine overSlots_true (fun t => t.mem.wf = true) _ (fun t k ht => wf_endSlot ht k) ?_
  simp only [keeps_completeAppend]
  exact wf_completeCopy h

@[simp] theorem wf_frameBody {s : State} (h : s.mem.wf = true) (f : FrameIn) :
    (s.frameBody f).mem.wf = true := by
  unfold State.frameBody
  simp only [keeps_freeChannels]
  refine wf_pageClear ?_ _
  simp only [keeps_tickInteg, keeps_startAppend, keeps_tickPorts, keeps_tickVote, keeps_overEndInst, keeps_judgeLanes,
    keeps_finishPass, keeps_formOutputs]
  exact foldl_true (fun t : State => t.mem.wf = true) _ (fun t k ht => wf_runInst ht _ _ k) _ (wf_copyFrame h _)

end Sys2Proof.Machine
end

