-- ==== Sys2Proof/WellFormed.lean ====
section
/-! DEFINITION. Which commands can be presented at all. A request is well-formed whatever its fields say: the engine
itself checks them and answers (R5, R168, R170). A command that names a thing of the engine (a slot, a clock, a lane,
a page) names one that exists, and a frame's inputs are ones the lines can carry. -/
namespace Sys2Proof

/-- A sample of 24 bits, signed (R27). -/
def sampleOk (x : Int) : Bool := decide (-8388608 ≤ x) && decide (x ≤ 8388607)

/-- A check group that exists (R106). -/
def groupOk (g : GroupFault) : Bool := decide (g.page < 8192) && decide (g.group < 128)

/-- At most 64 channels, each a sample (R156), and groups that exist. -/
def FrameIn.wellFormed (f : FrameIn) : Bool :=
  decide (f.channels.length ≤ 64) && f.channels.all sampleOk && f.faults.all groupOk

/-- Positions that exist: parameters 0 to 31 (R73), sends 0 to 3 (R160), routes 0 and 1 (R164). -/
def RampRef.wellFormed : RampRef → Bool
  | .param n => decide (n ≤ 31)
  | .send pos => decide (pos ≤ 3)
  | .route _ pos => decide (pos ≤ 1)

/-- The check of one command. -/
def WellFormed (i : Instr) : Bool :=
  match i with
  | .frame f => f.wellFormed
  | .scrubVisit faults => faults.all groupOk
  | .frameReceived _ chars => decide (0 < chars.length)
  | .instancePrimed slot | .drainQuiet slot | .drainLimit slot | .fadeComplete slot | .offerExpired slot
  | .returnRampEnd slot | .dipSwitch slot | .dipEnd slot | .poisonFallEnd slot | .poisonRiseEnd slot
  | .lfoWrap slot | .waitLimit slot => decide (slot ≤ 31)
  | .rampEnd slot which => decide (slot ≤ 31) && which.wellFormed
  | .crossfadeEnd slot param => decide (slot ≤ 31) && decide (param ≤ 31)
  | .sendDeparted slot pos => decide (slot ≤ 31) && decide (pos ≤ 3)
  | .routeDeparted slot _ pos => decide (slot ≤ 31) && decide (pos ≤ 1)
  | .beatEvent clock | .lastTapLapse clock => decide (clock ≤ 3)
  | .laneLost lane | .laneSynced lane => decide (lane ≤ 3)
  | .failureEntryExpiry page group => decide (page < 8192) && decide (group < 128)
  | .engineStart _ (some nv) => nv.pages.all fun p => decide (p < 65536)
  | .engineStart _ none => true
  | .identify _ | .budget _ | .status _ _ | .map _ _ _ _ _ | .create _ _ _ | .release _ _ _ _ | .hold _ _
  | .unhold _ _ | .share _ _ _ | .give _ _ _ | .accept _ _ | .decline _ _ | .set _ _ _
  | .sendSet _ _ _ _ _ _ | .sendClear _ _ _ | .claimOutput _ _ _ | .releaseOutput _ _
  | .routeSet _ _ _ _ _ _ _ | .routeClear _ _ _ _ | .tempoClaim _ _ | .tempoRelease _ _ | .tempoSet _ _ _
  | .tap _ _ | .meter _ _ _ | .tapLine _ _ | .linkTempo _ _ _ | .recallBegin _ _ _ _ _ | .recallItem _ _
  | .recallCommit _ | .recallAbandon _ | .recallResult _ | .noticeMode _ _ _ | .noticeMask _ _ _
  | .noticeTake _ | .endService _ | .errorRead _ | .errorClear _ | .portClear _ | .restart _ => true
  | .engineRestart | .resetAsserted | .linkUp _ | .linkDown _ | .tapLineEdge | .chainInChange _ _ | .copyStart
  | .copyComplete | .nvAppendStart | .nvAppendComplete | .voteDropped | .clockLost | .locked => true

end Sys2Proof
end

