-- ==== Sys2Proof/Laws/PerInstr.lean ====
section
/-! SUPPORT. Facts about every command, one lemma per constructor: an event of the engine that names a slot, as a
well-formed command, names one of the 32 (R1). -/
namespace Sys2Proof.Laws

namespace EventSlotExists

/-- The slot an event of the engine names. -/
def slotOf : Instr → Option Nat
  | .instancePrimed slot | .drainQuiet slot | .drainLimit slot | .fadeComplete slot | .offerExpired slot
  | .rampEnd slot _ | .returnRampEnd slot | .dipSwitch slot | .dipEnd slot | .crossfadeEnd slot _
  | .poisonFallEnd slot | .poisonRiseEnd slot | .lfoWrap slot | .waitLimit slot | .sendDeparted slot _
  | .routeDeparted slot _ _ => some slot
  | _ => none

/-- A well-formed event names a slot of the table. -/
def Statement (i : Instr) : Prop := WellFormed i = true → ∀ k, slotOf i = some k → k < 32

theorem identify (h : Hdr) : Statement (.identify h) :=
  fun _ _ e => nomatch e

theorem budget (h : Hdr) : Statement (.budget h) :=
  fun _ _ e => nomatch e

theorem status (h : Hdr) (slot : Nat) : Statement (.status h slot) :=
  fun _ _ e => nomatch e

theorem map (h : Hdr) (slot line : Nat) (list : Field PageList) (start : Nat) : Statement (.map h slot line list start) :=
  fun _ _ e => nomatch e

theorem create (h : Hdr) (slot : SlotArg) (form : CreateForm) : Statement (.create h slot form) :=
  fun _ _ e => nomatch e

theorem release (h : Hdr) (slot : Nat) (mode : Field RelMode) (drain : Option Nat) : Statement (.release h slot mode drain) :=
  fun _ _ e => nomatch e

theorem hold (h : Hdr) (slot : Nat) : Statement (.hold h slot) :=
  fun _ _ e => nomatch e

theorem unhold (h : Hdr) (slot : Nat) : Statement (.unhold h slot) :=
  fun _ _ e => nomatch e

theorem share (h : Hdr) (slot : Nat) (on : Field Bool) : Statement (.share h slot on) :=
  fun _ _ e => nomatch e

theorem give (h : Hdr) (slot : Nat) (target : Field Port) : Statement (.give h slot target) :=
  fun _ _ e => nomatch e

theorem accept (h : Hdr) (slot : Nat) : Statement (.accept h slot) :=
  fun _ _ e => nomatch e

theorem decline (h : Hdr) (slot : Nat) : Statement (.decline h slot) :=
  fun _ _ e => nomatch e

theorem set (h : Hdr) (slot : Nat) (form : SetForm) : Statement (.set h slot form) :=
  fun _ _ e => nomatch e

theorem sendSet (h : Hdr) (slot pos chan : Nat) (gain : Int) (ramp : Nat) : Statement (.sendSet h slot pos chan gain ramp) :=
  fun _ _ e => nomatch e

theorem sendClear (h : Hdr) (slot pos : Nat) : Statement (.sendClear h slot pos) :=
  fun _ _ e => nomatch e

theorem claimOutput (h : Hdr) (chan : Nat) (mode : Field ClaimMode) : Statement (.claimOutput h chan mode) :=
  fun _ _ e => nomatch e

theorem releaseOutput (h : Hdr) (chan : Nat) : Statement (.releaseOutput h chan) :=
  fun _ _ e => nomatch e

theorem routeSet (h : Hdr) (slot : Nat) (out : Field Side) (pos chan : Nat) (gain : Int) (ramp : Nat) : Statement (.routeSet h slot out pos chan gain ramp) :=
  fun _ _ e => nomatch e

theorem routeClear (h : Hdr) (slot : Nat) (out : Field Side) (pos : Nat) : Statement (.routeClear h slot out pos) :=
  fun _ _ e => nomatch e

theorem tempoClaim (h : Hdr) (clock : Nat) : Statement (.tempoClaim h clock) :=
  fun _ _ e => nomatch e

theorem tempoRelease (h : Hdr) (clock : Nat) : Statement (.tempoRelease h clock) :=
  fun _ _ e => nomatch e

theorem tempoSet (h : Hdr) (clock : Nat) (tempo : Option Nat) : Statement (.tempoSet h clock tempo) :=
  fun _ _ e => nomatch e

theorem tap (h : Hdr) (clock : Nat) : Statement (.tap h clock) :=
  fun _ _ e => nomatch e

theorem meter (h : Hdr) (clock beats : Nat) : Statement (.meter h clock beats) :=
  fun _ _ e => nomatch e

theorem tapLine (h : Hdr) (clock : Nat) : Statement (.tapLine h clock) :=
  fun _ _ e => nomatch e

theorem linkTempo (h : Hdr) (slot : Nat) (clock : Option Nat) : Statement (.linkTempo h slot clock) :=
  fun _ _ e => nomatch e

theorem recallBegin (h : Hdr) (number : Nat) (cond : Field Cond) (clock : Option Nat) (ramp : Nat) : Statement (.recallBegin h number cond clock ramp) :=
  fun _ _ e => nomatch e

theorem recallItem (h : Hdr) (item : RecallItem) : Statement (.recallItem h item) :=
  fun _ _ e => nomatch e

theorem recallCommit (h : Hdr) : Statement (.recallCommit h) :=
  fun _ _ e => nomatch e

theorem recallAbandon (h : Hdr) : Statement (.recallAbandon h) :=
  fun _ _ e => nomatch e

theorem recallResult (h : Hdr) : Statement (.recallResult h) :=
  fun _ _ e => nomatch e

theorem noticeMode (h : Hdr) (mode : Field NoticeMode) (base : Nat) : Statement (.noticeMode h mode base) :=
  fun _ _ e => nomatch e

theorem noticeMask (h : Hdr) (classes : List (Field NoticeClass)) (errors : List (Field ErrorName)) : Statement (.noticeMask h classes errors) :=
  fun _ _ e => nomatch e

theorem noticeTake (h : Hdr) : Statement (.noticeTake h) :=
  fun _ _ e => nomatch e

theorem endService (h : Hdr) : Statement (.endService h) :=
  fun _ _ e => nomatch e

theorem errorRead (h : Hdr) : Statement (.errorRead h) :=
  fun _ _ e => nomatch e

theorem errorClear (h : Hdr) : Statement (.errorClear h) :=
  fun _ _ e => nomatch e

theorem portClear (h : Hdr) : Statement (.portClear h) :=
  fun _ _ e => nomatch e

theorem restart (h : Hdr) : Statement (.restart h) :=
  fun _ _ e => nomatch e

theorem engineRestart : Statement (.engineRestart) :=
  fun _ _ e => nomatch e

theorem engineStart (straps : Straps) (nv : Option NvImage) : Statement (.engineStart straps nv) :=
  fun _ _ e => nomatch e

theorem resetAsserted : Statement (.resetAsserted) :=
  fun _ _ e => nomatch e

theorem frameReceived (port : Port) (chars : List Byte) : Statement (.frameReceived port chars) :=
  fun _ _ e => nomatch e

theorem linkUp (port : Port) : Statement (.linkUp port) :=
  fun _ _ e => nomatch e

theorem linkDown (port : Port) : Statement (.linkDown port) :=
  fun _ _ e => nomatch e

theorem tapLineEdge : Statement (.tapLineEdge) :=
  fun _ _ e => nomatch e

theorem chainInChange (port : Port) (asserted : Bool) : Statement (.chainInChange port asserted) :=
  fun _ _ e => nomatch e

theorem frame (f : FrameIn) : Statement (.frame f) :=
  fun _ _ e => nomatch e

theorem instancePrimed (slot : Nat) : Statement (.instancePrimed slot) :=
  fun h _ e => Option.some.inj e ▸ Nat.lt_succ_of_le (of_decide_eq_true h)

theorem drainQuiet (slot : Nat) : Statement (.drainQuiet slot) :=
  fun h _ e => Option.some.inj e ▸ Nat.lt_succ_of_le (of_decide_eq_true h)

theorem drainLimit (slot : Nat) : Statement (.drainLimit slot) :=
  fun h _ e => Option.some.inj e ▸ Nat.lt_succ_of_le (of_decide_eq_true h)

theorem fadeComplete (slot : Nat) : Statement (.fadeComplete slot) :=
  fun h _ e => Option.some.inj e ▸ Nat.lt_succ_of_le (of_decide_eq_true h)

theorem offerExpired (slot : Nat) : Statement (.offerExpired slot) :=
  fun h _ e => Option.some.inj e ▸ Nat.lt_succ_of_le (of_decide_eq_true h)

theorem rampEnd (slot : Nat) (which : RampRef) : Statement (.rampEnd slot which) :=
  fun h _ e => Option.some.inj e ▸ Nat.lt_succ_of_le (of_decide_eq_true (Bool.and_eq_true_iff.1 h).1)

theorem returnRampEnd (slot : Nat) : Statement (.returnRampEnd slot) :=
  fun h _ e => Option.some.inj e ▸ Nat.lt_succ_of_le (of_decide_eq_true h)

theorem dipSwitch (slot : Nat) : Statement (.dipSwitch slot) :=
  fun h _ e => Option.some.inj e ▸ Nat.lt_succ_of_le (of_decide_eq_true h)

theorem dipEnd (slot : Nat) : Statement (.dipEnd slot) :=
  fun h _ e => Option.some.inj e ▸ Nat.lt_succ_of_le (of_decide_eq_true h)

theorem crossfadeEnd (slot param : Nat) : Statement (.crossfadeEnd slot param) :=
  fun h _ e => Option.some.inj e ▸ Nat.lt_succ_of_le (of_decide_eq_true (Bool.and_eq_true_iff.1 h).1)

theorem poisonFallEnd (slot : Nat) : Statement (.poisonFallEnd slot) :=
  fun h _ e => Option.some.inj e ▸ Nat.lt_succ_of_le (of_decide_eq_true h)

theorem poisonRiseEnd (slot : Nat) : Statement (.poisonRiseEnd slot) :=
  fun h _ e => Option.some.inj e ▸ Nat.lt_succ_of_le (of_decide_eq_true h)

theorem lfoWrap (slot : Nat) : Statement (.lfoWrap slot) :=
  fun h _ e => Option.some.inj e ▸ Nat.lt_succ_of_le (of_decide_eq_true h)

theorem beatEvent (clock : Nat) : Statement (.beatEvent clock) :=
  fun _ _ e => nomatch e

theorem lastTapLapse (clock : Nat) : Statement (.lastTapLapse clock) :=
  fun _ _ e => nomatch e

theorem waitLimit (slot : Nat) : Statement (.waitLimit slot) :=
  fun h _ e => Option.some.inj e ▸ Nat.lt_succ_of_le (of_decide_eq_true h)

theorem scrubVisit (faults : List GroupFault) : Statement (.scrubVisit faults) :=
  fun _ _ e => nomatch e

theorem failureEntryExpiry (page group : Nat) : Statement (.failureEntryExpiry page group) :=
  fun _ _ e => nomatch e

theorem copyStart : Statement (.copyStart) :=
  fun _ _ e => nomatch e

theorem copyComplete : Statement (.copyComplete) :=
  fun _ _ e => nomatch e

theorem nvAppendStart : Statement (.nvAppendStart) :=
  fun _ _ e => nomatch e

theorem nvAppendComplete : Statement (.nvAppendComplete) :=
  fun _ _ e => nomatch e

theorem voteDropped : Statement (.voteDropped) :=
  fun _ _ e => nomatch e

theorem sendDeparted (slot pos : Nat) : Statement (.sendDeparted slot pos) :=
  fun h _ e => Option.some.inj e ▸ Nat.lt_succ_of_le (of_decide_eq_true (Bool.and_eq_true_iff.1 h).1)

theorem routeDeparted (slot : Nat) (side : Side) (pos : Nat) : Statement (.routeDeparted slot side pos) :=
  fun h _ e => Option.some.inj e ▸ Nat.lt_succ_of_le (of_decide_eq_true (Bool.and_eq_true_iff.1 h).1)

theorem laneLost (lane : Nat) : Statement (.laneLost lane) :=
  fun _ _ e => nomatch e

theorem laneSynced (lane : Nat) : Statement (.laneSynced lane) :=
  fun _ _ e => nomatch e

theorem clockLost : Statement (.clockLost) :=
  fun _ _ e => nomatch e

theorem locked : Statement (.locked) :=
  fun _ _ e => nomatch e

end EventSlotExists

end Sys2Proof.Laws
end

