-- ==== Sys2Proof/Laws/Requests.lean ====
section
/-! SUPPORT. What the taking of a request can do, said once: the reply it forms, what it leaves alone, and the checks that
stand before it (R5, R168 to R170). -/
namespace Sys2Proof.Machine

/-! ## One port's queue and replies -/

@[simp] theorem rest_sendNext (x : PortIo) : x.sendNext.rest = x.rest := by
  unfold PortIo.sendNext
  split <;> rfl

@[simp] theorem rest_queue (x : PortIo) (l : List QueuedReq) : ({ x with queue := l } : PortIo).rest = x.rest := rfl

@[simp] theorem rest_answer (x : PortIo) (r : Reply) : ({ x with answer := some r } : PortIo).rest = x.rest := rfl

/-- The reply handed over is the one formed last, whatever is being sent. -/
theorem sendNext_reply (x : PortIo) (r : Reply) :
    (match ({ x with answer := some r } : PortIo).sendNext.answer with
      | some y => some y
      | none => ({ x with answer := some r } : PortIo).sendNext.sending.map Sending.reply) = some r := by
  rcases x with ⟨up, run, silence, rx, queue, held, sending, answer, awaited⟩
  rcases sending with _ | y <;> rcases held with _ | ⟨q, t⟩ <;> rfl

/-! ## Answers -/

/-- What a reply handed over leaves (R168, R170). -/
theorem answered_answer (s : State) (h : Hdr) (code : Byte) (a : Ans) :
    (s.answer h code a).Answered h code a.status a.reason a.body := by
  unfold State.Answered State.lastReply State.answer
  simp only [io_setIo_self]
  exact sendNext_reply _ _

theorem portsKept_answer (s : State) (h : Hdr) (code : Byte) (a : Ans) : PortsKept h s (s.answer h code a) := by
  refine ⟨fun q hq => ?_, ?_⟩
  · unfold State.answer; exact io_setIo_other s _ hq
  · unfold State.answer; simp

theorem portsKept_dequeue (s : State) (h : Hdr) : PortsKept h s (s.dequeue h.port) := by
  refine ⟨fun q hq => ?_, ?_⟩
  · unfold State.dequeue; exact io_setIo_other s _ hq
  · unfold State.dequeue; simp

theorem PortsKept.refl (h : Hdr) (s : State) : PortsKept h s s := ⟨fun _ _ => rfl, rfl⟩

theorem PortsKept.trans {h : Hdr} {s t u : State} (x : PortsKept h s t) (y : PortsKept h t u) : PortsKept h s u :=
  ⟨fun q hq => (y.1 q hq).trans (x.1 q hq), y.2.trans x.2⟩

theorem PortsKept.of_ports {h : Hdr} {s t : State} (e : t.ports = s.ports) : PortsKept h s t := by
  have : ∀ q, t.io q = s.io q := fun q => by simp [State.io, e]
  exact ⟨fun q _ => this q, by rw [this]⟩

/-- A link is not touched by what only moves queue and replies. -/
theorem PortsKept.linkUp {h : Hdr} {s t : State} (x : PortsKept h s t) (q : Port) : t.linkUp q = s.linkUp q := by
  by_cases e : q = h.port
  · subst e
    have := congrArg PortIo.up x.2
    exact this
  · simp [State.linkUp, x.1 q e]

/-! ## A request as a whole -/

/-- A request that its port takes (R168 to R170): the action on the state without the request, and its reply. -/
theorem request_taken {s : State} {h : Hdr} {code : Byte} (ht : s.takes h code = true) (act : State → State × Ans) :
    s.request code h act = (act (s.dequeue h.port)).1.answer h code (act (s.dequeue h.port)).2 := by
  simp [State.request, ht, State.takeNext]

/-- A request that its port does not take changes nothing (log entry 11). -/
theorem request_turned_away {s : State} {h : Hdr} {code : Byte} (ht : s.takes h code = false)
    (act : State → State × Ans) : s.request code h act = s := by
  simp [State.request, ht]

/-- All that a taken request can do, where its action touches no port: it answers as the action says, no other port and
nothing else of its own port moves, and the rest of the state is what the action leaves. -/
theorem request_spec {s : State} {h : Hdr} {code : Byte} (ht : s.takes h code = true) {act : State → State × Ans}
    (hp : (act (s.dequeue h.port)).1.ports = (s.dequeue h.port).ports) :
    (s.request code h act).Answered h code (act (s.dequeue h.port)).2.status (act (s.dequeue h.port)).2.reason
      (act (s.dequeue h.port)).2.body ∧
    PortsKept h s (s.request code h act) ∧
    { s.request code h act with ports := s.ports } = { (act (s.dequeue h.port)).1 with ports := s.ports } := by
  rw [request_taken ht]
  exact ⟨answered_answer _ _ _ _,
    (portsKept_dequeue s h).trans ((PortsKept.of_ports hp).trans (portsKept_answer _ _ _ _)), rfl⟩

/-- A taken request whose action refuses, or only answers: nothing else changes. -/
theorem request_unchanged {s : State} {h : Hdr} {code : Byte} (ht : s.takes h code = true) {act : State → State × Ans}
    (he : (act (s.dequeue h.port)).1 = s.dequeue h.port) :
    Unchanged h s (s.request code h act) ∧
    (s.request code h act).Answered h code (act (s.dequeue h.port)).2.status (act (s.dequeue h.port)).2.reason
      (act (s.dequeue h.port)).2.body := by
  have x := request_spec ht (act := act) (by rw [he])
  refine ⟨⟨x.2.1, ?_⟩, x.1⟩
  rw [x.2.2, he]
  rfl

/-- A malformed request at the head of a port that can take its next (R168, R169): BAD_ARGUMENT, and nothing else. -/
theorem answerMalformed_spec {s : State} {p : Port} {q : QueuedReq} {rest : List QueuedReq}
    (hq : (s.io p).queue = q :: rest) (hr : s.portReady p = true) (hm : malformed q = true) :
    Unchanged { port := p, tag := q.tag } s (s.answerMalformed p) ∧
    (s.answerMalformed p).Answered { port := p, tag := q.tag } q.code .refused (some .badArgument) .empty := by
  unfold State.answerMalformed
  simp only [hq, hr, hm, Bool.and_true, if_true, State.takeNext, State.refuse]
  exact ⟨⟨(portsKept_dequeue s _).trans (portsKept_answer _ _ _ _), rfl⟩, answered_answer _ _ _ _⟩

/-- A port whose head is a request of the catalogue, or that is not ready, answers nothing of itself. -/
theorem answerMalformed_none {s : State} {p : Port}
    (h : ∀ q rest, (s.io p).queue = q :: rest → s.portReady p = false ∨ malformed q = false) :
    s.answerMalformed p = s := by
  unfold State.answerMalformed
  split
  · rename_i q rest e
    rcases h q rest e with x | x <;> simp [x]
  · rfl

/-- The length of the message frame of a reply (R168). -/
theorem length_replyFrame (r : Reply) : (replyFrame r).length = replyChars r := by
  simp [replyFrame, replyChars, checkBytes, lowHigh]
  omega

/-- What the dequeued state shares with the state before. -/
theorem dequeue_rest (s : State) (p : Port) : { s.dequeue p with ports := s.ports } = s := rfl

@[simp] theorem inst_dequeue (s : State) (p : Port) (k : Nat) : (s.dequeue p).inst k = s.inst k := rfl
@[simp] theorem clock_dequeue (s : State) (p : Port) (k : Nat) : (s.dequeue p).clock k = s.clock k := rfl
@[simp] theorem np_dequeue (s : State) (p : Port) (q : Port) : (s.dequeue p).np q = s.np q := rfl
@[simp] theorem rc_dequeue (s : State) (p : Port) (q : Port) : (s.dequeue p).rc q = s.rc q := rfl
@[simp] theorem rate_dequeue (s : State) (p : Port) : (s.dequeue p).rate = s.rate := rfl
@[simp] theorem claim_dequeue (s : State) (p : Port) (k : Nat) : (s.dequeue p).claim k = s.claim k := rfl

/-- The links a request sees are the links before it. -/
@[simp] theorem linkUp_dequeue (s : State) (p : Port) (q : Port) :
    (s.dequeue p).linkUp q = s.linkUp q :=
  (portsKept_dequeue s { port := p, tag := 0 }).linkUp q

/-! ## The checks of R5 -/

/-- All that the checks of R5 can answer before the request itself. -/
theorem asOwner_cases (s : State) (p : Port) (slot : Nat) (argsOk : Bool) (states : List InstState)
    (act : Inst → State × Ans) :
    (s.asOwner p slot argsOk states act = s.refuse .badArgument ∧ (31 < slot ∨ argsOk = false)) ∨
    (s.asOwner p slot argsOk states act = s.refuse .badState ∧ slot ≤ 31 ∧ argsOk = true ∧ s.inst slot = none) ∨
    (s.asOwner p slot argsOk states act = s.refuse .notOwner ∧
      ∃ i, s.inst slot = some i ∧ argsOk = true ∧ i.owner ≠ p) ∨
    (s.asOwner p slot argsOk states act = s.refuse .badState ∧
      ∃ i, s.inst slot = some i ∧ argsOk = true ∧ i.owner = p ∧ i.state ∉ states) ∨
    ∃ i, s.asOwner p slot argsOk states act = act i ∧ s.inst slot = some i ∧ slot ≤ 31 ∧ argsOk = true ∧
      i.owner = p ∧ i.state ∈ states := by
  unfold State.asOwner
  by_cases ha : 31 < slot ∨ argsOk = false
  · exact .inl ⟨if_pos ha, ha⟩
  · rw [if_neg ha]
    have hs : slot ≤ 31 := by omega
    have hb : argsOk = true := by cases argsOk <;> simp_all
    cases hi : s.inst slot with
    | none => exact .inr (.inl ⟨rfl, hs, hb, rfl⟩)
    | some i =>
      by_cases ho : i.owner = p
      · by_cases hm : i.state ∈ states
        · refine .inr (.inr (.inr (.inr ⟨i, ?_, rfl, hs, hb, ho, hm⟩)))
          simp [ho, hm]
        · refine .inr (.inr (.inr (.inl ⟨?_, i, rfl, hb, ho, hm⟩)))
          simp [ho, hm]
      · refine .inr (.inr (.inl ⟨?_, i, rfl, hb, ho⟩))
        simp [ho]

/-- The request itself, where every check of R5 is passed. -/
theorem asOwner_passed {s : State} {p : Port} {slot : Nat} {argsOk : Bool} {states : List InstState} {i : Inst}
    (act : Inst → State × Ans) (hi : s.inst slot = some i) (ha : argsOk = true) (ho : i.owner = p)
    (hm : i.state ∈ states) : s.asOwner p slot argsOk states act = act i := by
  have := inst_lt hi
  unfold State.asOwner
  rw [if_neg (by simp [ha]; omega), hi]
  simp [ho, hm]

/-! ## The end of a frame -/

/-- What acts at the end of the last frame leaves the counter and whether a frame ends as they were (log entry 15). -/
@[simp] theorem atFrameEnd_frame (f : State → State) (s : State) :
    (State.atFrameEnd f s).frame = s.frame ∧ (State.atFrameEnd f s).ending = s.ending := ⟨rfl, rfl⟩

@[simp] theorem whileRunning_on {s : State} (h : s.running = true) (f : State → State) : s.whileRunning f = f s := by
  simp [State.whileRunning, h]

end Sys2Proof.Machine
end

