-- ==== Sys2Proof/Tests/Slice0.lean ====
section
/-! SUPPORT. Small tests of the model: an ill-formed command for each check, worked cases of the spec, single commands on
small states, and for every statement with hypotheses states that meet them. -/
namespace Sys2Proof.Tests

open Machine

/- One proof at a time: each has a kernel evaluation, and threads that wait for one another take memory. -/
set_option Elab.async false

/-! ## Small states -/

def hA : Hdr := { port := .a, tag := 7 }
def hB : Hdr := { port := .b, tag := 8 }

def hC : Hdr := { port := .c, tag := 9 }

/-- Port `h` takes a request of every code. -/
def takesAll (s : State) (h : Hdr) : Bool := catalogue.all fun c => s.takes h (BitVec.ofNat 8 c)

/-- Right after engine start, with every link UP. -/
def up : State := { State.reset with ports := State.reset.ports.map fun x => { x with up := true } }

/-- A DELAY of 480 samples with one line of two pages, of port A. -/
def delay (x : InstState) : Inst :=
  { primedInst .k48
      (newInst .a { kind := .delay, variant := none, span := 480, taps := 0, voices := 0, mirror := false } 80 none 480 0)
      [{ capacity := 481, pages := [4, 5], mirrors := [], writePos := 0, damp := 0 }] 0 with state := x }

/-- `up` with a record in slot 0. -/
def withInst (i : Inst) : State := up.setInst 0 i

/-- A live path with a gain. -/
def live : Path := { chan := 3, setGain := 100, gain := 100, ramp := none, departing := false }

/-- A departing path whose ramp has run, and one whose last frame is to come. -/
def gone (pos : Nat) : Path :=
  { live with gain := 0, ramp := some { start := 100, target := 0, len := 480, pos := pos }, departing := true }

/-- The next state of a command, the state itself where it stops. -/
def after (c : Instr) (s : State) : State :=
  match exec c s with
  | .next t => t
  | .fault _ | .refused _ => s

/-- Status and reason of the reply port A got last. -/
def told (s : State) : Option (Status × Option Reason) := (s.lastReply .a).map fun r => (r.status, r.reason)

/-- A frame with nothing on its lines. -/
def quiet : FrameIn :=
  { channels := [], laneGood := Vector.replicate 4 true, periods := [20833333],
    rx := ⟨⟨true, false⟩, ⟨true, false⟩, ⟨true, false⟩⟩, faults := [] }

/-! ## WellFormed -/

theorem test_wf_channels : WellFormed (.frame { quiet with channels := List.replicate 65 0 }) = false := by decide
theorem test_wf_sample : WellFormed (.frame { quiet with channels := [8388608] }) = false := by decide
theorem test_wf_sample_low : WellFormed (.frame { quiet with channels := [-8388609] }) = false := by decide
theorem test_wf_frame_page : WellFormed (.frame { quiet with faults := [⟨8192, 0, .corrected⟩] }) = false := by decide
theorem test_wf_scrub_group : WellFormed (.scrubVisit [⟨0, 128, .corrected⟩]) = false := by decide
theorem test_wf_no_characters : WellFormed (.frameReceived .a []) = false := by decide
theorem test_wf_slots : ∀ c ∈ [Instr.instancePrimed 32, .drainQuiet 32, .drainLimit 32, .fadeComplete 32, .offerExpired 32,
    .returnRampEnd 32, .dipSwitch 32, .dipEnd 32, .poisonFallEnd 32, .poisonRiseEnd 32, .lfoWrap 32, .waitLimit 32,
    .rampEnd 32 (.param 0), .crossfadeEnd 32 2, .sendDeparted 32 0, .routeDeparted 32 .left 0],
    WellFormed c = false := by decide
theorem test_wf_positions : ∀ c ∈ [Instr.rampEnd 0 (.param 32), .rampEnd 0 (.send 4), .rampEnd 0 (.route .left 2),
    .crossfadeEnd 0 32, .sendDeparted 0 4, .routeDeparted 0 .right 2], WellFormed c = false := by decide
theorem test_wf_clocks_and_lanes : ∀ c ∈ [Instr.beatEvent 4, .lastTapLapse 4, .laneLost 4, .laneSynced 4],
    WellFormed c = false := by decide
theorem test_wf_expiry_page : WellFormed (.failureEntryExpiry 8192 0) = false := by decide
theorem test_wf_expiry_group : WellFormed (.failureEntryExpiry 0 128) = false := by decide
theorem test_wf_start_list : WellFormed (.engineStart State.reset.straps (some ⟨[65536], true⟩)) = false := by decide
theorem test_wf_good : ∀ c ∈ [Instr.frame quiet, .rampEnd 31 (.param 31), .failureEntryExpiry 8191 127, .laneLost 3],
    WellFormed c = true := by decide

/-! ## Worked cases of the spec -/

/-- 2.9, a delay read and write. -/
theorem test_delay_read : interpolate 1000000 1200000 128 = 1100000 ∧
    take 0 (2000000 * 32768 + 16384 * 1100000) = 2550000 := by decide
/-- 2.9, interpolation across the full swing. -/
theorem test_full_swing : interpolate 8388607 (-8388608) 255 = -8323072 := by decide
/-- 2.9, a feedback write that saturates. -/
theorem test_saturates : take 0 (8000000 * 32768 + 32440 * 8000000) = 8388607 ∧
    takeClamps 0 (8000000 * 32768 + 32440 * 8000000) = 1 := by decide
/-- 3.1, the cost of a front-of-house set: DELAY, mirrored ROOM and MULTITAP at 96 kHz. -/
theorem test_costs :
    pagesNeeded .k48 { kind := .delay, variant := none, span := 96000, taps := 0, voices := 0, mirror := false } = 95 ∧
    pagesNeeded .k48 { kind := .reverb, variant := some .room, span := 0, taps := 0, voices := 0, mirror := true } = 54 ∧
    unitsNeeded { kind := .reverb, variant := some .room, span := 0, taps := 0, voices := 0, mirror := true } = 218 ∧
    pagesNeeded .k96 { kind := .multitap, variant := none, span := 192000, taps := 8, voices := 0, mirror := true } = 378 ∧
    unitsNeeded { kind := .multitap, variant := none, span := 192000, taps := 8, voices := 0, mirror := true } = 106 := by
  decide
/-- 3.2, synced delays of a clock at FPB 5,759,100. -/
theorem test_synced : syncedDelay 5759100 5 12288000 = 8638650 ∧ syncedDelay 5759100 8 12288000 = 4319325 ∧
    syncedDelay 5759100 0 12288000 = 11518200 ∧ syncedDelay 5759100 10 3072000 = 1439775 ∧
    syncedDelay 5759100 8 3072000 = 2159662 := by decide
/-- 4.3, a ramp cut short. -/
theorem test_ramp_cut : rampValue ⟨1000, 0⟩ ⟨4000, 0⟩ 480 1 = ⟨1006, 0⟩ ∧ rampValue ⟨1000, 0⟩ ⟨4000, 0⟩ 480 240 = ⟨2500, 0⟩ ∧
    rampValue ⟨2500, 0⟩ ⟨2000, 0⟩ 480 1 = ⟨2499, 0⟩ := by decide
/-- 3.3, DAMP 6.0 kHz at 48 kHz. -/
theorem test_damp_table : dampCoefficient .k48 60 = 17313 := by decide
/-- 5.1 and 5.3: FPB at 120.00 and 128.02 BPM, and the tempo of three intervals. -/
theorem test_tempo : fpbOf .k48 12000 = 6144000 ∧ fpbOf .k48 12802 = 5759100 ∧ tempoOf .k48 [22480, 22530, 22480] = 12802 := by
  decide
/-- 6.2, a pool built around the retired pages 8,191, 5,000 and 2,047. -/
theorem test_pool : (DelayMem.spareBuild [8191, 5000, 2047]).take 5 = [8190, 6143, 4095, 2046, 8189] ∧
    (DelayMem.spareBuild [8191, 5000, 2047]).length = 61 := by decide
/-- 10.2, the check of the bytes 31H to 39H. -/
theorem test_crc : crc16 [0x31, 0x32, 0x33, 0x34, 0x35, 0x36, 0x37, 0x38, 0x39] = 0x29B1#16 := by decide +kernel

/-! ## Single commands -/

/-- A DELAY of 480 samples costs 2 pages and 40 units (R48, R49), and its slot is the lowest FREE one (R6). -/
theorem test_create :
    (fun t : State => (told t, (t.inst 0).map Inst.state, t.alloc.charged.a))
      (after (.create hA .any ⟨.is .delay, .absent, some 10, none, none, .is false, none⟩) up) =
    (some (.done, none), some .priming, ⟨2, 40⟩) := by decide +kernel

/-- R6: a DELAY takes a span. -/
theorem test_create_form :
    told (after (.create hA .any ⟨.is .delay, .absent, none, none, none, .is false, none⟩) up) =
      some (.refused, some .badArgument) := by decide +kernel

/-- R47: a missing mirror choice is no, R168: an unknown one is BAD_ARGUMENT. -/
theorem test_create_mirror : (fun t : State => (told t, (t.inst 0).map fun i => i.choice.mirror))
      (after (.create hA .any ⟨.is .delay, .absent, some 10, none, none, .absent, none⟩) up) = (some (.done, none), some false) ∧
    told (after (.create hA .any ⟨.is .delay, .absent, some 10, none, none, .unknown, none⟩) up) =
      some (.refused, some .badArgument) := by decide +kernel

/-- R10, R5: the owner holds its RUNNING instance, another port does not. -/
theorem test_hold : ((after (.hold hA 0) (withInst (delay .running))).inst 0).map Inst.state = some .held ∧
    ((after (.hold hB 0) (withInst (delay .running))).inst 0).map Inst.state = some .running := by decide +kernel

/-- R13: TAIL with a drain limit of 3 tenths is raised to 5 and CLAMPED. -/
theorem test_release : (fun t : State => (told t, (t.inst 0).map fun i => (i.state, i.drainLimit)))
    (after (.release hA 0 (.is .tail) (some 3)) (withInst (delay .running))) =
      (some (.clamped, none), some (.draining, 5)) := by decide +kernel

/-- 4.3: SET FEEDBACK 4,000 over 10 ms from 1,000 gives 1,006 in its first frame. -/
theorem test_set : (((after (.set hA 0 ⟨3, .free 4000, 10, .is .now⟩)
    (withInst ((delay .running).modParam 3 fun p => { p with prev := ⟨1000, 0⟩, value := ⟨1000, 0⟩, target := ⟨1000, 0⟩ }))).inst
      0).map fun i => i.value 3) = some 1006 := by decide +kernel

/-- R82: a change of a DISCRETE parameter waits for the dip's switch. -/
theorem test_set_discrete : ((after (.set hA 0 ⟨7, .free 0, 0, .is .now⟩) (withInst (delay .running))).inst 0).map
    (fun i => (i.value 7, i.dip.phase, i.dip.switch)) = some (1, .fall, [(7, 0)]) := by decide +kernel

/-- R161: a send in RUNNING starts from gain zero, over 480 frames. -/
theorem test_send : ((after (.sendSet hA 0 0 5 32767 10) (withInst (delay .running))).inst 0).map
    (fun i => i.sends[0]) = some (some ⟨5, 32767, 68, some ⟨0, 32767, 480, 1⟩, false⟩) := by decide +kernel

/-- R162 and R164: a route needs its channel claimed. -/
theorem test_route : told (after (.routeSet hA 0 (.is .left) 0 5 100 10) (withInst (delay .running))) =
      some (.refused, some .notClaimed) ∧
    told (after (.routeSet hA 0 (.is .left) 0 5 100 10) (after (.claimOutput hA 5 (.is .claim)) (withInst (delay .running)))) =
      some (.done, none) := by decide +kernel

/-- 5.3, tapping in a tempo: frame 0, past the half of beat 2, and frame 22,480. -/
theorem test_taps :
    ((after (.tap hA 2) (up.modClock 2 fun c => { c with phase := 4000000, beat := 2 })).clock 2).map
      (fun c => (c.phase, c.beat, c.beatNow, c.series)) = some (0, 3, true, []) ∧
    ((after (.tap hA 2) { up.modClock 2 fun c => { c with phase := 5754880, beat := 3, lastTap := some 0 } with
      frame := 22480 }).clock 2).map (fun c => (c.tempo, c.fpb, c.beat, c.series)) =
        some (12811, 5755054, 4, [22480]) := by decide +kernel

/-- R94: at half the tempo the phase doubles with FPB. -/
theorem test_tempo_set : ((after (.tempoSet hA 0 (some 6000)) (up.modClock 0 fun c => { c with phase := 1000 })).clock 0).map
    (fun c => (c.fpb, c.phase)) = some (12288000, 2000) := by decide +kernel

/-- 11.3, frame 180: INSTANCE pending at base 64 is taken as vector 68 and pushed. -/
theorem test_vectored : (fun t : State => ((t.np .a).stack, (t.lastReply .a).map fun r => match r.body with
      | .vector v _ d => (v, d)
      | _ => (0, 0)))
    (after (.noticeTake hA) ((up.setNp .a { up.np .a with mode := .vectored, base := 64 }).raise .a .inst (.freed 3 .quiet))) =
      ([.inst], some (68, 1)) := by decide +kernel

/-- R183: in POLLED mode a pending class asserts ATTENTION; in VECTORED mode it needs CHAIN IN. -/
theorem test_attention : (up.raise .a .inst (.freed 3 .quiet)).attentionLine .a = true ∧
    ((up.setNp .a { up.np .a with mode := .vectored, chainIn := false }).raise .a .inst (.freed 3 .quiet)).attentionLine .a =
      false := by decide +kernel

/-- R175: the only port UP restarts the engine by itself; with all three UP its vote waits. -/
theorem test_restart : told (after (.restart hA) up) = some (.pending, none) ∧
    told (after (.restart hA) (State.reset.setIo .a { PortIo.reset with up := true })) = some (.done, none) := by decide +kernel

/-- R159, R96: one frame from reset. -/
theorem test_frame : (fun t : State => (t.frame, (t.clock 0).map Clock.phase, t.lanes.outNext.length))
    (after (.frame quiet) State.reset) = (1, some 256, 64) := by decide +kernel

/-- R117, R118: the eighth group fails bank 0, whose 16 spares are WITHDRAWN. -/
theorem test_bank_fails :
    (fun t : State => (t.mem.bankFailed 0, t.mem.page 2047, t.mem.page 0, t.mem.page 2048, t.mem.spares.length, t.faultLine))
      ((List.range 8).foldl (fun s g => s.enterFailure 0 g) up) =
    (true, .withdrawn, .withdrawn, .free false, 48, true) := by decide +kernel

/-- R126, R127: the visit of frame 0 makes page 0 clean. -/
theorem test_scrub : (after (.scrubVisit []) up).mem.page 0 = .free true := by decide +kernel

/-- R167: the link comes UP after 480 frames and not before. -/
theorem test_link : ((after (.linkUp .a) (State.reset.setIo .a { PortIo.reset with run := 480 })).io .a).up = true ∧
    ((after (.linkUp .a) (State.reset.setIo .a { PortIo.reset with run := 479 })).io .a).up = false := by decide +kernel

/-- R168: a frame for IDENTIFY with a false check counts FRAME_CHECK and joins nothing. -/
theorem test_false_check : (fun t : State => ((t.io .a).queue, (t.np .a).first.map ErrorRec.name))
    (after (.frameReceived .a [0xA5, 7, 1, 0, 0, 0]) up) = ([], some .frameCheck) := by decide +kernel

/-- R173: an unreadable list asserts FAULT from the first frame. -/
theorem test_engine_start : (after (.engineStart State.reset.straps (some ⟨[], false⟩)) State.reset).faultLine = true ∧
    (after (.engineStart State.reset.straps (some ⟨[8191, 5000, 2047], true⟩)) State.reset).mem.spares.length = 61 := by
  decide +kernel

/-- R155: with no record RECALL_RESULT answers NONE. -/
theorem test_recall_result : told (after (.recallResult hA) up) = some (.nothing, none) := by decide +kernel

/-! ## States that meet the hypotheses of the statements -/

theorem witness_StepRunsTheFrontCommand : { up with pending := [Instr.locked] }.pending = .locked :: [] ∧ up.pending = [] := by
  decide

theorem witness_EngineStartSetsEveryBlock :
    (let nv : NvImage := ⟨[8191, 0], true⟩
     nv.checkGood = true ∧ nv.pages.length ≤ 64 ∧ (∀ p, p ∈ nv.pages → p ≤ 8191) ∧ nv.pages.Nodup) ∧
    (List.range 64).length = 64 ∧ (List.range 64).Nodup ∧ (⟨[], false⟩ : NvImage).checkGood = false ∧
    64 < (List.range 65).length ∧ (∃ p, p ∈ [8192] ∧ 8191 < p) ∧ ¬[5, 5].Nodup := by decide +kernel

/-- Every port's vote carries, and no reply is awaited. -/
def voted : State := { up with vote := some ⟨⟨true, true, true⟩, 1, true⟩ }

theorem witness_a_carried_vote : voted.running = true ∧ voted.vote = some ⟨⟨true, true, true⟩, 1, true⟩ ∧
    (∀ p ∈ allPorts, (voted.io p).awaited = false) ∧ voted.integ.retired.length ≤ 64 ∧
    (∀ p, p ∈ voted.integ.retired → p ≤ 8191) ∧ voted.integ.retired.Nodup := by decide

theorem witness_TakeRoundsHalvesUpAndClamps :
    ∀ c ∈ [((-6 : Int), (2097151 : Int), (1 : Int)), (2, -4096, 0), (2, -4097, -1), (0, 2 ^ 39, 2 ^ 24)],
      -6 ≤ c.1 ∧ c.1 ≤ 2 ∧ c.2.2 * 2 ^ (15 - c.1).toNat ≤ c.2.1 + 2 ^ (14 - c.1).toNat ∧
      c.2.1 + 2 ^ (14 - c.1).toNat < (c.2.2 + 1) * 2 ^ (15 - c.1).toNat := by decide

theorem witness_ReadsAndDampingLieBetween :
    (255 ≤ 255 ∧ 256 * (-1) ≤ ((-1 : Int) - 0) * 255 + 128 ∧ ((-1 : Int) - 0) * 255 + 128 < 256 * (-1 + 1)) ∧
    ((0 : Int) ≤ 32768 ∧ 32768 * 1 ≤ ((1 : Int) - 0) * 32768 + 16384 ∧ ((1 : Int) - 0) * 32768 + 16384 < 32768 * (1 + 1)) ∧
    ((10 : Int) ≤ 10 ∧ (10 : Int) ≤ 199 ∧ (199 : Int) < 200) := by
  decide

theorem witness_FeedbackStaysBelowUnity : (1 ≤ 480 ∧ 480 ≤ Rate.k48.pick 480 960 ∧ 960 ≤ Rate.k96.pick 480 960) ∧
    (32440 : Int).natAbs ≤ 32440 ∧ (-32440 : Int).natAbs ≤ 32440 ∧ crossInEffect .k48 false 240 20000 12441 = 10000 := by
  decide

/-- A parameter before the last frame of a ramp. -/
def ramping : Param :=
  { num := 3, prev := ⟨0, 0⟩, value := ⟨0, 0⟩, target := ⟨480, 0⟩, ramp := some ⟨⟨0, 0⟩, 480, 479⟩, discrete := false,
    division := none, xfade := none, waiting := none }

theorem witness_RampStaysBetweenStartAndTarget : (1 ≤ 480 ∧ 480 ≤ 480 ∧ (⟨0, 0⟩ : Val).e = (⟨480, 0⟩ : Val).e) ∧
    ((⟨16384, 1⟩ : Val).e < (⟨30000, 2⟩ : Val).e ∧ Int.tdiv 16384 (2 ^ (2 - 1 : Int).toNat) = 8192 ∧
      (⟨16384, 0⟩ : Val).e < (⟨3, 1⟩ : Val).e ∧ rampValue ⟨16384, 1⟩ ⟨30000, 2⟩ 480 240 = ⟨19096, 2⟩) ∧
    ramping.ramp = some ⟨⟨0, 0⟩, 480, 479⟩ ∧ ramping.target = ⟨480, 0⟩ ∧ 479 + 1 = 480 := by decide

theorem witness_PoisonedFrameWritesOnlyZero : (let i := { delay .running with poison := 65535 }
    i.poisoned = false ∧ i.poison ≤ 65535 ∧ i.env.phase = .clear) ∧
    { delay .running with poisoned := true, env := ⟨.silent, 0, 0, 0⟩ }.poisoned = true ∧
    (∀ x ∈ [(EnvPhase.fall, 63), (.rise, 63), (.silent, 0)], { delay .running with env := ⟨x.1, x.2, 9, 9⟩ }.env.phase = x.1) ∧
    (let i := { delay .running with lines := [{ capacity := 481, pages := [6144, 6145], mirrors := [], writePos := 0, damp := 0 }] }
     let s := { (List.range 8).foldl (fun s g => s.enterFailure 8191 g) up with insts := (withInst i).insts }
     let reads := lineReads s.rate (refreshDecay s.rate i) ((i.oscs.map (phaseNow (s.linkedClock i) i)).headD 0)
     s.inst 0 = some i ∧ (∀ l ∈ i.lines, l.mirrors = []) ∧ s.mem.bankFailed (6144 / 2048) = true ∧
       .poisonOutput ∉ (s.np i.owner).errorMask ∧
       (∀ x ∈ reads, ∀ d ∈ x.heads, (i.lines[x.line]?.bind fun l => l.pages[ringPos l (d / 256) / 1024]?) = some 6145) ∧
       reads ≠ [] ∧ ((s.runInst quiet [] 0).inst 0).map Inst.poisoned = some true) := by decide +kernel

/-- Lane 0 SYNCED with bad frames, lane 1 LOST with good ones. -/
def lanesAt (bad good : Nat) : Vector Lane 4 :=
  #v[{ Lane.reset with synced := true, badRun := bad }, { Lane.reset with goodRun := good }, Lane.reset, Lane.reset]

/-- Three bad frames or 255 good ones, the word clock LOCKED with bad periods. -/
def edge (bad good : Nat) : State :=
  { up with lanes := { up.lanes with inputs := lanesAt bad good, wordClock := .locked, bad := bad } }

theorem witness_FrameMovesCounterClocksAndLanes : (let s := edge 3 255
    s.running = true ∧ s.vote = none ∧ ((s.clock 0).map fun c => decide (c.phase + 256 < c.fpb)) = some true ∧
      s.lanes.inputs[0].synced = true ∧ s.lanes.inputs[0].badRun < 4 ∧ s.lanes.inputs[1].synced = false ∧
      s.lanes.inputs[1].goodRun < 256 ∧ s.lanes.wordClock = .locked ∧ s.lanes.bad < 4) ∧ quiet.laneGood[0] = true ∧
    (((up.modClock 0 fun c => { c with phase := 6143744 }).clock 0).map fun c => decide (c.fpb ≤ c.phase + 256)) = some true ∧
    up.lanes.wordClock ≠ .locked ∧ up.lanes.good < 4096 := by decide +kernel

theorem witness_LaneAndClockStatesChange : (let s := edge 4 256
    s.running = true ∧ s.lanes.inputs[0].synced = true ∧ 4 ≤ s.lanes.inputs[0].badRun ∧ s.lanes.inputs[1].synced = false ∧
      256 ≤ s.lanes.inputs[1].goodRun ∧ s.lanes.wordClock = .locked ∧ 4 ≤ s.lanes.bad) ∧
    (let s := { up with lanes := { up.lanes with good := 4096 } }
     s.running = true ∧ s.lanes.wordClock ≠ .locked ∧ 4096 ≤ s.lanes.good) := by decide +kernel

theorem witness_IdentifyAndBudgetReport :
    (takesAll up hA = true ∧ takesAll up hB = true ∧ takesAll up hC = true) ∧
    (takesAll up hA = true ∧ up.alloc.pageExcess up.straps ≤ pageCommon up.straps ∧
      up.alloc.unitExcess up.straps ≤ unitCommon up.straps) ∧
    (∀ s ∈ [up, (List.range 8).foldl (fun s g => s.enterFailure 8191 g) up], s.mem.samplesWf = true ∧ s.mem.tableWf = true ∧
      ∀ b ∈ [0, 1, 2, 3], s.mem.bankFailed b = true → (s.mem.table.all fun c => !c.2.isFree) = true) := by
  decide +kernel

theorem witness_StatusAndMapReportTheRecord : takesAll up hA = true ∧ up.inst 31 = none ∧
    takesAll (withInst (delay .running)) hA = true ∧ (withInst (delay .running)).inst 0 = some (delay .running) ∧
    (delay .running).state ≠ .waiting ∧ ((delay .running).lines[0]?.map fun l => decide (1 < l.pages.length)) = some true ∧
    (withInst (delay .waiting)).inst 0 = some (delay .waiting) ∧ 0 ≤ 8 := by decide +kernel

/-- The form of a DELAY of 10 ms. -/
def form : CreateForm := ⟨.is .delay, .absent, some 10, none, none, .is false, none⟩

/-- The choices of `form`. -/
def formChoice : Choice := { kind := .delay, variant := none, span := 480, taps := 0, voices := 0, mirror := false }

/-- Port B holds all of the common units and its own, so that port A has its reserve alone. -/
def full : State := { up with alloc := { up.alloc with charged := ⟨⟨0, 512⟩, ⟨0, 1024⟩, ⟨0, 512⟩⟩ } }

theorem witness_CreatePrimesOrRefusesWhole : takesAll up hA = true ∧ up.ending = false ∧ formOk { form with span := none } = false ∧
    formOk form = true ∧ form.kind = .is .delay ∧ up.inst 0 = none ∧ up.inst 31 = none ∧
    up.chargeTest .a (choiceOf .k48 form).1 = none ∧ full.chargeTest .a (choiceOf .k48 form).1 = some .noUnits ∧
    (withInst (delay .running)).inst 0 ≠ none ∧
    (∀ k, k ≤ 31 → { up with insts := Vector.replicate 32 (some (delay .running)) }.inst k ≠ none) ∧
    (formOk { form with mirror := .absent } = true ∧ formOk { form with mirror := .is true } = true) ∧
    (∀ f ∈ [{ form with mirror := .unknown }, { form with kind := .unknown },
      { form with taps := some 1 }, { form with voices := some 1 }, { form with variant := .is .room },
      { form with kind := .is .multitap }, { form with kind := .is .reverb }], formOk f = false) := by decide +kernel

/-- An offer on a RUNNING instance of port A to port B. -/
def offered : Inst := { delay .running with offer := some ⟨.b, 0⟩ }

theorem witness_InstanceRequestsAreCheckedInOrder : takesAll up hA = true ∧ up.inst 31 = none ∧
    (withInst (delay .running)).inst 0 = some (delay .running) ∧ (delay .running).owner ≠ .b ∧ (delay .running).offer = none ∧
    (withInst (delay .waiting)).inst 0 = some (delay .waiting) ∧ (delay .waiting).owner = .a ∧
    (withInst offered).inst 0 = some offered ∧ offered.offer = some ⟨.b, 0⟩ ∧ Port.b ≠ .a := by decide +kernel

theorem witness_ReleaseLetsRingOrFades : ∀ x ∈ [InstState.running, .held, .draining, .fading],
    takesAll (withInst (delay x)) hA = true ∧ (withInst (delay x)).inst 0 = some (delay x) ∧ (delay x).owner = .a ∧
    (delay x).offer = none ∧ (delay x).state = x := by decide +kernel

theorem witness_offer_apart : offered.OfferApart ∧ (withInst offered).inst 0 = some offered := by
  refine ⟨fun o h => ?_, by decide +kernel⟩
  have : o = ⟨.b, 0⟩ := (Option.some.inj h).symm
  subst this
  decide

theorem witness_FreedInstanceReturnsItsCharge : (∀ i ∈ [{ delay .draining with quiet := 4800 }, { delay .draining with quiet := 4799 },
      { delay .fading with fade := 2401 }, { delay .fading with fade := 2400 }, delay .priming],
    (withInst i).inst 0 = some i ∧ (withInst i).alloc.waiting = [] ∧ (withInst i).mem.tableWf = true ∧
      takesAll (withInst i) hA = true ∧ (withInst i).running = true ∧ i.owner = .a) ∧
    Rate.k48.pick 4800 9600 = 4800 ∧ Rate.k48.pick 2400 4800 = 2400 := by decide +kernel

theorem witness_HoldShareAndGiveActOnTheRecord :
    (∀ x ∈ [InstState.running, .held, .draining],
      takesAll (withInst (delay x)) hA = true ∧ (withInst (delay x)).inst 0 = some (delay x) ∧ (delay x).owner = .a) ∧
    ((∀ x ∈ [InstState.running, .held, .draining],
      takesAll (withInst (delay x)) hA = true ∧ (withInst (delay x)).inst 0 = some (delay x) ∧ (delay x).owner = .a ∧
        (delay x).offer = none ∧ (delay x).state ≠ .waiting ∧ (withInst (delay x)).linkUp .b = true) ∧ offered.offer ≠ none ∧
      ((withInst (delay .running)).setIo .b PortIo.reset).linkUp .b = false) := by
  decide +kernel

/-- The charges of port A's instance, and the same moved to port B. -/
def chargedA : Alloc := { charged := ⟨⟨2, 40⟩, ⟨0, 0⟩, ⟨0, 0⟩⟩, waiting := [] }
def movedB : Alloc := { charged := ⟨⟨0, 0⟩, ⟨2, 40⟩, ⟨0, 0⟩⟩, waiting := [] }

/-- The same with port B's reserve and the common share used up. -/
def chargedFull : Alloc := { charged := ⟨⟨2, 40⟩, ⟨0, 1024⟩, ⟨0, 0⟩⟩, waiting := [] }
def movedFull : Alloc := { charged := ⟨⟨0, 0⟩, ⟨2, 1064⟩, ⟨0, 0⟩⟩, waiting := [] }
def chargedPages : Alloc := { charged := ⟨⟨2, 40⟩, ⟨4064, 0⟩, ⟨0, 0⟩⟩, waiting := [] }
def movedPages : Alloc := { charged := ⟨⟨0, 0⟩, ⟨4066, 40⟩, ⟨0, 0⟩⟩, waiting := [] }

theorem witness_OffersEndByAcceptDeclineOrExpiry :
    ((∀ c ∈ [(chargedA, movedB), (chargedFull, movedFull), (chargedPages, movedPages)],
      let s := { withInst offered with alloc := c.1 }
      takesAll s hB = true ∧ s.inst 0 = some offered ∧ offered.owner ≠ .b ∧ s.alloc.waiting = [] ∧ c.2.waiting = [] ∧
        ∀ p ∈ allPorts, c.2.charged.get p = if p = offered.owner then
            { pages := (c.1.charged.get p).pages - offered.pages, units := (c.1.charged.get p).units - offered.units }
          else if p = .b then
            { pages := (c.1.charged.get p).pages + offered.pages, units := (c.1.charged.get p).units + offered.units }
          else c.1.charged.get p) ∧
      (movedB.pageExcess up.straps ≤ pageCommon up.straps ∧ movedB.unitExcess up.straps ≤ unitCommon up.straps) ∧
      (movedFull.pageExcess up.straps ≤ pageCommon up.straps ∧ unitCommon up.straps < movedFull.unitExcess up.straps) ∧
      pageCommon up.straps < movedPages.pageExcess up.straps) ∧
    ((∀ n ∈ [0, 1], let i := { delay .running with offer := some ⟨.b, n⟩ }
      (withInst i).inst 0 = some i ∧ (withInst i).running = true ∧ takesAll (withInst i) hB = true)) := by
  decide +kernel

theorem witness_PrimingAndDrainsEnd : (∀ i ∈ [{ delay .priming with primed := true }, delay .priming, delay .draining],
    (withInst i).running = true ∧ (withInst i).inst 0 = some i) ∧
    (let s := { withInst (delay .draining) with frame := 384000 }
     s.inst 0 = some (delay .draining) ∧ (delay .draining).offer = none ∧
       s.since (delay .draining).drainStart = (delay .draining).drainLimit * s.rate.pick 4800 9600) := by decide +kernel

/-- An unlinked DELAY whose synced TIME glides. -/
def gliding : Inst :=
  (delay .running).modParam 2 fun p =>
    { p with prev := ⟨700, 0⟩, value := ⟨710, 0⟩, target := ⟨1000, 0⟩, ramp := some ⟨⟨600, 0⟩, 40, 11⟩, division := some 13 }

/-- R53: a division without a link stops a glide at the value of the frame before. -/
theorem test_division_without_link : ((after (.set hA 0 ⟨2, .division 5, 0, .is .now⟩) (withInst gliding)).inst 0).map
    (fun i => (i.value 2, (i.param 2).map fun p => (p.target.m, p.ramp, p.division))) = some (700, some (700, none, some 5)) := by
  decide +kernel

/-- R89: a link removed leaves the delay in effect where it stands, the division stored. -/
theorem test_unlink : ((after (.linkTempo hA 0 none) (withInst { gliding with link := some 3 })).inst 0).map
    (fun i => (i.link, i.value 2, (i.param 2).bind Param.division)) = some (none, 700, some 13) := by decide +kernel

/-- R168: a DONE that names no clamp has a body of status and reason alone. -/
theorem test_reply_without_fields : (∀ b ∈ [ReplyBody.empty, .clamped []], replyFields ⟨7, 0x82, .done, none, b⟩ = []) ∧
    malformed ⟨7, 0x03, []⟩ = true := by decide

/-- A DELAY's FEEDBACK at its default. -/
def feedback : Param := defaultParam .k48 3 (PSpec.coef (-32440) 32440 9830)

theorem witness_SetRampsValuesAndStoresDivisions :
    ((∀ x ∈ [InstState.priming, .running],
      takesAll (withInst (delay x)) hA = true ∧ (withInst (delay x)).inst 0 = some (delay x) ∧
        paramSpec .k48 (delay x).choice 3 = some (PSpec.coef (-32440) 32440 9830) ∧ (delay x).param 3 = some feedback ∧
        paramSpec .k48 (delay x).choice 0 ≠ none ∧ ((delay x).param 0).isSome = true ∧ (delay x).updates.length < 8 ∧
        (delay x).owner = .a ∧ (delay x).state = x ∧ (delay x).link = none) ∧
      (PSpec.coef (-32440) 32440 9830).form = .plain ∧ (PSpec.coef (-32440) 32440 9830).discrete = false ∧
      feedback.division = none) ∧
    ((∀ i ∈ [delay .running, (delay .running).modParam 6 fun p => { p with division := some 13 }],
      takesAll (withInst i) hA = true ∧ (withInst i).inst 0 = some i ∧ i.owner = .a ∧ i.state = .running ∧ i.link = none) ∧
      (paramSpec .k48 (delay .running).choice 6).map PSpec.form = some .rate ∧
      (paramSpec .k48 (delay .running).choice 2).map PSpec.form = some .samples ∧ ((delay .running).param 2).isSome = true ∧
      (((delay .running).modParam 6 fun p => { p with division := some 13 }).param 6).map Param.division = some (some 13)) ∧
    takesAll (withInst gliding) hA = true ∧ gliding.link = none ∧ (gliding.param 2).map (fun p => (p.xfade, p.ramp.isSome)) =
      some (none, true) := by
  decide +kernel

/-- Eight pending updates of other parameters than FEEDBACK. -/
def waitingList : List Update := [8, 9, 10, 11, 12, 13, 14, 15].map fun n => ⟨n, .free 0, 0, .lfoZero⟩

theorem witness_ConditionalSetWaitsInTheList : (∀ l ∈ [[], waitingList, [⟨3, .free 0, 0, .lfoZero⟩]],
    let i := { delay .running with updates := l }
    takesAll (withInst i) hA = true ∧ (withInst i).inst 0 = some i ∧ i.owner = .a ∧ i.state = .running ∧ oscCount i.choice ≠ 0 ∧
      acceptValue .k48 (PSpec.coef (-32440) 32440 9830) ((withInst i).linkedFpb i) (.free 5) = some (.free 5, []) ∧
      valueFormOk 3 (.free 5) = true) ∧ waitingList.length = 8 ∧ (∀ u, u ∈ waitingList → u.param ≠ 3) ∧
    paramSpec .k48 (delay .running).choice 31 = none ∧ takesAll up hA = true ∧ up.inst 31 = none ∧
    valueFormOk 3 (.division 13) = true ∧ (paramSpec .k48 (delay .running).choice 3).map PSpec.form = some .plain ∧
    valueFormOk 7 (.free 2) = true ∧ (paramSpec .k48 (delay .running).choice 7).map PSpec.form = some .named := by decide +kernel

theorem witness_DiscreteParametersSwitchUnderADip :
    (∀ d ∈ [Dip.mk .none 0 [] [], .mk .fall 240 [(7, 0)] [], .mk .fall 241 [(7, 0)] [], .mk .rise 240 [] [(7, 0)],
        .mk .rise 241 [] [(7, 0)]],
      let i := { delay .running with dip := d }
      takesAll (withInst i) hA = true ∧ (withInst i).running = true ∧ (withInst i).inst 0 = some i ∧ i.owner = .a ∧
        (i.dip.switch.map Prod.fst).Nodup) ∧
    (paramSpec .k48 (delay .running).choice 7).map PSpec.discrete = some true ∧ ((delay .running).param 7).isSome = true ∧
    acceptValue .k48 (PSpec.disc .named 0 1 1) none (.free 0) = some (.free 0, []) ∧ Rate.k48.pick 240 480 = 240 := by
  decide +kernel

/-- TIME at a crossfade's position. -/
def fading (pos : Nat) (w : Option Waiting) : Inst :=
  (delay .running).modParam 2 fun p => { p with xfade := some ⟨256, 512, 480, pos⟩, waiting := w }

theorem witness_DelayTimesMoveAndRetarget :
    ((∀ i ∈ [delay .priming, delay .running, fading 480 none, fading 481 none,
        fading 481 (some ⟨768, 0, false⟩)],
      takesAll (withInst i) hA = true ∧ (withInst i).running = true ∧ (withInst i).inst 0 = some i ∧ i.owner = .a ∧
        (i.param 2).isSome = true) ∧
      (paramSpec .k48 (delay .running).choice 2).map PSpec.form = some .samples ∧
      (let i := { delay .running with link := some 0 }
       (withInst i).linkedFpb i = some 6144000 ∧ syncedRaw 6144000 13 = 768000) ∧
      (((fading 480 none).param 2).bind Param.xfade).map (fun x => decide (x.pos ≤ x.len)) = some true ∧
      (((fading 481 none).param 2).bind Param.xfade).map (fun x => decide (x.len < x.pos)) = some true) ∧
    ((let i := (delay .running).modParam 2 fun p => { p with division := some 13 }
      (i.params.map Param.num).Nodup ∧ (∀ p ∈ i.params, p.xfade = none) ∧ (i.param 2).map Param.division = some (some 13) ∧
        (i.param 3).map Param.division = some none ∧ (paramSpec .k48 i.choice 2).map PSpec.form = some .samples)) := by
  decide +kernel

theorem witness_RampsReturnsAndEnvelopesEnd :
    (∀ i ∈ [{ delay .running with params := [{ ramping with ramp := some ⟨⟨0, 0⟩, 480, 481⟩ }] },
        { delay .running with params := [{ ramping with ramp := some ⟨⟨0, 0⟩, 480, 480⟩ }] },
        { delay .running with sends := #v[some { gone 481 with departing := false }, none, none, none],
                              left := #v[none, some { gone 481 with departing := false }] },
        { delay .running with ret := 480 }, { delay .running with ret := 481, env := ⟨.fall, 64, 0, 0⟩ },
        { delay .running with env := ⟨.fall, 63, 0, 0⟩ }, { delay .running with env := ⟨.rise, 64, 0, 0⟩ },
        { delay .running with env := ⟨.rise, 63, 0, 0⟩ }],
      (withInst i).running = true ∧ (withInst i).inst 0 = some i ∧ (i.params.map Param.num).Nodup) ∧
    (gone 481).ramp = some ⟨100, 0, 480, 481⟩ ∧ Rate.k48.pick 480 960 = 480 := by decide +kernel

theorem witness_SendsAndRoutesRampAndDepart :
    ((∀ x ∈ [InstState.priming, .running, .held], ∀ v ∈ [none, some live, some (gone 480), some (gone 481)],
        let i := { delay x with sends := #v[none, none, none, v] }
        takesAll (withInst i) hA = true ∧ (withInst i).running = true ∧ (withInst i).inst 0 = some i ∧ i.owner = .a ∧
          i.state = x ∧ i.sends[3] = v) ∧ 63 < channelCount .k48 ∧ live.departing = false ∧ live.chan ≠ 4 ∧
      (gone 481).departing = true) ∧
    ((∀ x ∈ [InstState.priming, .running, .draining], ∀ v ∈ [none, some live, some (gone 480), some (gone 481)],
        let i := { delay x with left := #v[none, v], right := #v[v, some { live with chan := 4 }] }
        let s := (withInst i).setClaim 3 ⟨.claimed, some .a, 0⟩
        takesAll s hA = true ∧ s.running = true ∧ s.inst 0 = some i ∧ i.owner = .a ∧ i.state ≠ .waiting ∧
          (i.routes .left)[1] = v ∧ (i.routes .right)[0] = v ∧ s.holds .a 3 = true ∧ s.holds .a 4 = false ∧
          (s.claim 3).isSome = true)) := by
  decide +kernel

theorem witness_ChannelsAndClocksAreClaimedAndReleased :
    (∀ c ∈ [Claim.mk .free none 0, .mk .claimed (some .a) 5, .mk .releasing (some .a) 5,
        .mk .claimed (some .b) 5, .mk .releasing (some .b) 5],
      takesAll (up.setClaim 63 c) hA = true ∧ (up.setClaim 63 c).claim 63 = some c ∧ channelCount up.rate ≤ 64) ∧
    (∀ c ∈ [Claim.mk .claimed (some .a) 5, .mk .releasing (some .a) 5,
        .mk .free none 0, .mk .claimed (some .b) 5],
      takesAll (up.setClaim 63 c) hA = true ∧ (up.setClaim 63 c).claim 63 = some c) := by
  decide +kernel

/-- Clock 3 with an owner. -/
def owned (p : Option Port) : State := up.modClock 3 fun c => { c with owner := p }

theorem witness_clocks_claimed : (∀ p ∈ [none, some Port.a, some Port.b],
    takesAll (owned p) hA = true ∧ ((owned p).clock 3).map Clock.owner = some p) ∧
    (((owned none).clock 0).map fun c => (c.owner, c.tapLine)) = some (none, true) ∧
    ([1, 2, 3].all fun k => ((owned none).clock k).any fun c => !c.tapLine) = true ∧
    ((up.modClock 0 fun c => { c with owner := some .b }).clock 0).map Clock.owner = some (some .b) := by decide +kernel

/-- Clock 0, which holds the TAP line, with its last tap in frame 0. -/
def tapped (now : FrameNo) : State := { up.modClock 0 fun c => { c with lastTap := some 0 } with frame := now }

theorem witness_TempoMeterAndTapsMoveAClock :
    ((∀ p ∈ [none, some Port.a, some Port.b],
      takesAll (owned p) hA = true ∧ ((owned p).clock 3).map (fun c => (c.owner, c.tempo)) = some (p, 12000)) ∧
      max 4000 (min 30000 3999) = 4000 ∧ max 4000 (min 30000 30001) = 30000 ∧ max 4000 (min 30000 12000) = 12000) ∧
    (takesAll up hA = true ∧ ((up.clock 3).map Clock.owner) = some none ∧
      ((owned (some .b)).clock 3).map Clock.owner = some (some .b)) ∧
    ((∀ n ∈ [((9599 : FrameNo), 9599), (9600, 9600), (72000, 72000), (72001, 72001), (72002, 72002)],
      takesAll (tapped n.1) hA = true ∧ (tapped n.1).running = true ∧ (tapped n.1).since 0 = n.2 ∧
        (((tapped n.1).clock 0).map fun c => (c.owner, c.lastTap, c.tapLine)) = some (none, some 0, true)) ∧
      ((up.clock 0).map Clock.lastTap) = some none ∧ Rate.k48.pick 72000 144000 + 1 < 72002) := by
  decide +kernel

theorem witness_LinkTempoCountsAndRetargets : (∀ l ∈ [none, some 0, some 3], let i := { delay .running with link := l }
    takesAll (withInst i) hA = true ∧ (withInst i).inst 0 = some i ∧ i.owner = .a ∧ i.state = .running ∧
      ((withInst i).clock 3).isSome = true) := by decide +kernel

/-- A record numbered 9 without shortfalls. -/
def record (x : RecordState) (c : Cond) (clock : Option Nat) (f : Option FrameNo) (items : List RecordItem) : Record :=
  ⟨9, x, c, clock, 0, f, items, 0, 0, 0, 0, []⟩

/-- An ARMED record on a bar of clock 0, whose beat and bar are owed. -/
def armed : State :=
  (up.modClock 0 fun c => { c with beatNow := true, barNow := true, beatOwed := true, barOwed := true }).setRc .a
    { staging := none, record := some (record .armed .bar (some 0) none []) }

/-- A record on a beat and one on a bar are due at an event of clock 0 that is both, the one on a bar at no other. -/
theorem witness_due : (∀ r, (armed.rc .a).record = some r → armed.Due 0 true true .a r ∧ ¬armed.Due 0 true false .a r) ∧
    (armed.rc .a).record = some (record .armed .bar (some 0) none []) ∧ ∀ r, ¬up.Due 0 true true .a r := by
  refine ⟨fun r h => ?_, by decide +kernel, fun r h => nomatch h.1⟩
  have : r = record .armed .bar (some 0) none [] := (Option.some.inj h).symm
  subst this
  exact ⟨⟨h, rfl, rfl, .inr ⟨by decide, rfl⟩⟩, fun g => g.2.2.2.elim (fun x => nomatch x.1) fun x => nomatch x.2⟩

/-- An instance with two updates on a beat, of a glide and of a DISCRETE parameter, and one on LFO_ZERO. -/
def due : Inst :=
  { gliding with link := some 0, updates := [⟨2, .free 9, 0, .beat⟩, ⟨7, .free 0, 0, .beat⟩, ⟨3, .free 4, 0, .lfoZero⟩] }

theorem witness_updates_due : (due.params.map Param.num).Nodup ∧ (∀ p ∈ due.params, p.xfade = none) ∧ due.dip.pos ≤ 240 ∧
    (let j := due.applyUpdates .k48 (some 6144000) [.beat]
     (j.value 2, j.dip.switch, j.updates.map Update.param) = (9 * 256, [(7, 0)], [3])) := by decide +kernel

theorem witness_BeatsAndWrapsTakeUpdates : armed.running = true ∧
    ((armed.clock 0).map fun c => (c.beatOwed, c.barOwed)) = some (true, true) ∧
    ((armed.rc .a).record.map fun r => (r.state, r.clock, r.cond)) = some (.armed, some 0, .bar) ∧
    ((up.clock 0).map Clock.beatOwed) = some false ∧
    (∀ w ∈ [true, false], let i := { delay .running with oscs := [⟨0, 0, w, false, false⟩] }
      (withInst i).inst 0 = some i ∧ lfoWrapped ((withInst i).linkedClock i) i = w) := by decide +kernel

/-- An oscillator on a division, its formed phase 0 and that of the frame before 9: R41's wrap is taken once, however the
position moves in the frame, and a free wrap taken before does not take it. -/
theorem test_formed_wrap_is_taken_once :
    let i (w : Bool) : Inst :=
      { (delay .running).modParam 6 fun p => { p with division := some 13 } with oscs := [⟨0, 9, w, false, false⟩] }
    lfoWrapped (up.clock 0) (i false) = true ∧ lfoWrapped (up.clock 0) (clearWrap (up.clock 0) (i false)) = false ∧
      lfoWrapped (up.clock 0) (clearWrap none (i true)) = true := by decide +kernel

/-- R101, R41: a tap at 1.15 beats moves the position back to 1, and the phase of an eighth dotted on from 0.067 to 0.667:
the oscillator wraps all the same. -/
theorem test_tap_backward_wraps :
    let i : Inst := { (delay .running).modParam 6 fun p => { p with division := some 11 } with
                      link := some 2, oscs := [⟨0, 0x11111111#32, false, false, false⟩] }
    let s := (withInst i).modClock 2 fun c => { c with phase := 921600, beat := 2 }
    let t := after (.tap hA 2) s
    (lfoWrapped (s.clock 2) i, (t.clock 2).map fun c => (c.phase, c.beat)) = (false, some (0, 2)) ∧
      (t.inst 0).map (fun j => (decide (0x11111111 < (phaseNow (t.clock 2) j (j.oscs.headD ⟨0, 0, false, false, false⟩)).toNat),
        lfoWrapped (t.clock 2) j)) = some (true, true) := by decide +kernel

/-- An open staging area of port A. -/
def staged (n : Nat) (cond : Cond) (items : List RecallItem) : State :=
  up.setRc .a { staging := some ⟨n, cond, if cond = .now then none else some 3, 0, items⟩, record := none }

theorem witness_StagingCollectsItems : takesAll up hA = true ∧ (up.rc .a).staging = none ∧ (up.rc .a).record = none ∧
    ((armed.rc .a).record).isSome = true ∧ itemFormOk (.release 31 (.is .tail)) = true ∧ itemFormOk (.release 32 (.is .tail)) = false ∧
    (∀ n ∈ [31, 32], ((staged 9 .now (List.replicate n .unknown)).rc .a).staging.map (fun x => x.items.length) = some n) := by
  decide +kernel

theorem witness_CommitArmsARecord : (let s := (staged 9 .bar [.release 0 (.is .cut)]).setInst 0 (delay .running)
    takesAll s hA = true ∧ s.inst 0 = some (delay .running) ∧
      s.itemFault .a [.release 0 (.is .cut)] (.release 0 (.is .cut)) = none) ∧
    (staged 9 .bar [.release 0 (.is .cut)]).itemFault .a [.release 0 (.is .cut)] (.release 0 (.is .cut)) = some .badState ∧
    (let s := armed.setRc .a { armed.rc .a with staging := some ⟨10, .bar, some 0, 0, []⟩ }
     takesAll s hA = true ∧ ((s.rc .a).staging.map Staging.cond) = some .bar ∧ ((s.rc .a).record.map Record.state) = some .armed) := by
  decide +kernel

/-- The five steps of R145 on a REPLACE of slot 0 by slot 1. -/
theorem witness_validation : (let it : RecallItem := .replace 0 1 form [] (.is .tail)
    (∀ x ∈ [((delay .running).state, none), (.held, none), (.priming, none), (.waiting, some Reason.badState),
        (.draining, some .badState), (.fading, some .badState)],
      (up.setInst 0 (delay x.1)).itemFault .a [it] it = x.2) ∧
    (withInst (delay .running)).itemFault .b [it] it = some .notOwner ∧ up.itemFault .a [it] it = some .badState ∧
    ((withInst (delay .running)).setInst 1 (delay .running)).itemFault .a [it] it = some .badArgument ∧
    (withInst (delay .running)).itemFault .a [it, .release 0 (.is .cut)] it = some .badArgument ∧
    (withInst (delay .running)).itemFault .a [it, .release 2 (.is .cut)] it = none) ∧
    (withInst (delay .running)).itemFault .b [] (.setParams 0 [(0, .free 7)] none) = some .badArgument ∧
    (withInst (delay .running)).itemFault .a [] (.setParams 0 [(0, .gain 100 0)] none) = none := by
  decide +kernel

/-- R158: 2 % of a nominal period of 1/48 ms, both ends within. -/
theorem test_period_within_two_percent : (∀ n ∈ [20416667, 20833333, 21250000], State.judgePeriod .k48 n = .good) ∧
    ∀ n ∈ [20416666, 21250001], State.judgePeriod .k48 n = .bad := by decide

theorem witness_RecallAppliesAtOnce : (∀ x ∈ [InstState.running, .held],
    let s := (staged 9 .now [.release 0 (.is .tail)]).setInst 0 (delay x)
    takesAll s hA = true ∧ (s.rc .a).record = none ∧ s.inst 0 = some (delay x) ∧ (delay x).offer = none ∧ (delay x).tag ≠ some 9 ∧
      (delay x).state = x) ∧
    (let s := staged 9 .now [.create 31 form none [] [] [] []]
     takesAll s hA = true ∧ s.inst 31 = none ∧ s.ending = false ∧ choiceOf s.rate form = (formChoice, []) ∧
       s.chargeTest .a formChoice = none ∧ { s with alloc := full.alloc }.chargeTest .a formChoice = some .noUnits) := by
  decide +kernel

/-- A WAITING member of an applied record, 10 s and a little later. -/
def member : Inst :=
  { delay .waiting with tag := some 9, kept := some ⟨0, [], none, [], [], [], false, true, 480⟩ }
def waits (now : FrameNo) : State :=
  let r := record .settling .now none (some 0) [⟨.create 0 form none [] [] [] [], none⟩]
  { (withInst member).setRc .a { staging := none, record := some r } with frame := now }

theorem witness_WaitingEndsAfterTenSeconds : (∀ n ∈ [((480000 : FrameNo), 480000), (480001, 480001)],
    (waits n.1).running = true ∧ (waits n.1).inst 0 = some member ∧ (waits n.1).since 0 = n.2 ∧
      ((waits n.1).rc .a).record.map (fun r => (r.applyFrame, r.items.length)) = some (some 0, 1)) ∧
    member.state = .waiting ∧ member.owner = .a := by decide +kernel

/-- Port A with classes pending and a class in service. -/
def serving (m : NoticeMode) (stack : List NoticeClass) (mask : List NoticeClass) : State :=
  let s := up.raise .a .inst (.freed 3 .quiet)
  s.setNp .a { s.np .a with mode := m, base := 64, stack := stack, classMask := mask }

theorem witness_NoticesAreSetReadAndTaken :
    (takesAll up hA = true ∧ 248 ≤ 248 ∧ 248 % 8 = 0 ∧ 248 < 256 ∧ 7 % 8 ≠ 0 ∧
      (∀ c ∈ [Field.is NoticeClass.memory], ∃ x ∈ allClasses, c = .is x ∧ x ≠ .fault)) ∧
    ((∀ x ∈ [(NoticeMode.polled, ([] : List NoticeClass), ([] : List NoticeClass)), (.polled, [], [.inst]), (.vectored, [], []),
          (.vectored, [.tempo], []), (.vectored, [.inst], []), (.vectored, [.memory], []), (.vectored, [], [.inst])],
        let s := serving x.1 x.2.1 x.2.2
        takesAll s hA = true ∧ (s.np .a).mode = x.1 ∧ (s.np .a).stack = x.2.1 ∧ (s.np .a).classMask = x.2.2 ∧
          ∀ c ∈ allClasses, ((s.np .a).classes.get c.idx).pending = decide (c = .inst))) := by
  decide +kernel

theorem witness_LinesFollowTheNotices : (∀ m ∈ [NoticeMode.polled, .vectored], (serving m [] []).running = true ∧
    ((serving m [] []).np .a).mode = m) ∧ (after .resetAsserted up).running = false := by decide +kernel

/-- The longest body, and the frame around it with its check. -/
def body : List Byte := List.replicate 250 0
def sealed : List Byte := 0xA5 :: 7 :: 0x50 :: 250 :: (body ++ checkBytes (7 :: 0x50 :: 250 :: body))

theorem witness_CheckedFramesJoinTheQueue : up.running = true ∧ up.linkUp .a = true ∧ State.reset.linkUp .a = false ∧
    (up.io .a).rx = [] ∧ (up.io .a).queue.length < 8 ∧ sealed.length = 256 ∧ (250 : Byte).toNat = body.length ∧
    (checkBytes (7 :: 0x50 :: 250 :: body)).length = 2 ∧ [0, 0] ≠ checkBytes [7, 0x01, 0] ∧
    8 ≤ ((up.setIo .a { up.io .a with queue := List.replicate 8 ⟨7, 1, []⟩ }).io .a).queue.length := by decide +kernel

theorem witness_LinksComeUpAndGoDown : (∀ x ∈ [{ PortIo.reset with run := 480 }, { PortIo.reset with run := 479 },
      { PortIo.reset with up := true, silence := 4800 }, { PortIo.reset with up := true, silence := 4799 }],
    (up.setIo .a x).running = true ∧ (up.setIo .a x).io .a = x) ∧
    Rate.k48.pick 480 960 = 480 ∧ Rate.k48.pick 4800 9600 = 4800 ∧
    (∀ v ∈ [(⟨true, false, false⟩ : PerPort Bool), ⟨true, true, false⟩, ⟨true, true, true⟩],
      { up with vote := some ⟨v, 5, false⟩ }.vote.map Vote.carried = some false) := by decide +kernel

theorem witness_PortClearReturnsThePortsShare : takesAll (withInst (delay .priming)) hA = true ∧
    takesAll (withInst offered) hB = true := by decide +kernel

theorem witness_RestartIsVotedAndKeepsTheLinks : takesAll up hA = true ∧ up.vote = none ∧
    (let s := { up with vote := some ⟨⟨false, true, true⟩, 1, false⟩ }
     takesAll s hA = true ∧ s.vote.map (fun v => (v.voters.get .a, v.voters.get .b)) = some (false, true) ∧ takesAll s hB = true ∧
       s.running = true) ∧
    { up with vote := some ⟨⟨false, true, true⟩, 0, false⟩ }.vote.map Vote.left = some 0 := by decide

/-! ## States that meet the hypotheses of the statements on frames, pages, recalls and integrity -/

/-- A mirrored line: its second pages lie in bank 3. -/
def mirrored (x : InstState) : Inst :=
  { delay x with lines := [{ capacity := 481, pages := [4, 5], mirrors := [6144, 6145], writePos := 1025, damp := 0 }] }

theorem witness_FrameRunsAnInstance :
    (∀ i ∈ [delay .running, mirrored .held, (delay .draining).modParam 6 fun p => { p with division := some 13 },
        { delay .fading with fade := 1, sends := #v[some live, none, none, none] }],
      let s := withInst i
      s.running = true ∧ s.inst 0 = some i ∧ i.state ≠ .waiting ∧ i.state ≠ .priming ∧ s.mem.samplesWf = true ∧
        s.mem.tableWf = true ∧ (∀ l ∈ i.lines, l.pages ≠ []) ∧
        (∀ p ∈ State.instPages i, s.mem.bankFailed (p / 2048) = false) ∧
        ((s.takeEnded.engineRestart.takeStarting quiet.faults).inst 0).map Inst.state = some i.state ∧ i.oscs.length = 1) ∧
    quiet.faults = [] ∧ (mirrored .running).lines[0]?.map (Line.stores none) = some [5 * 1024 + 1, 6145 * 1024 + 1] ∧
    (mirrored .running).lines[0]?.map (Line.stores (some ⟨5, 8191, ⟨0, 0, 1, .primary⟩, 1⟩)) =
      some [5 * 1024 + 1, 8191 * 1024 + 1, 6145 * 1024 + 1] ∧
    lfoDivision (delay .running) = none ∧
    lfoDivision ((delay .running).modParam 6 fun p => { p with division := some 13 }) = some 13 ∧
    (withInst (delay .priming)).inst 0 = some (delay .priming) ∧ (delay .priming).state = .priming ∧
    (∀ l ∈ (delay .running).lines, 1 ≤ l.capacity) ∧ ((up.clock 0).map fun c => decide (0 < c.fpb)) = some true := by
  decide +kernel

/-- R41, R42: a beat and a half into a cycle of four beats, and the two oscillator values there. -/
theorem test_oscillator : syncedPhase 6144000 3072000 2 4 1 = 0x60000000#32 ∧ triangle 0x60000000#32 = 16384 ∧
    sine 0x60000000#32 = 23170 := by decide +kernel

/-- R43, R86: TIME at a crossfade's frame 120 of 480 reads two heads, the second at a quarter. -/
theorem test_heads : lineReads .k48 (fading 120 none) 0 = [⟨0, [256, 512], 8192⟩] := by decide +kernel

/-- An instance of a kind with a value of its parameter 2. -/
def kindOf (k : Kind) (voices : Nat) (v : Int) : Inst :=
  { (delay .running).modParam 2 fun p => { p with value := ⟨v, 0⟩ } with
    choice := { kind := k, variant := none, span := 480, taps := 8, voices := voices, mirror := false } }

theorem witness_KindsComputeWritesAndOutputs :
    (∀ k ∈ [Kind.delay, .pingpong, .multitap, .chorus, .reverb], (kindOf k 4 1).choice.kind = k ∧
      (kindOf k 4 1).state ≠ .held ∧ { kindOf k 4 1 with state := .held }.state = .held ∧ (kindOf k 4 1).env.phase = .clear ∧ (kindOf k 4 1).dip.phase = .none) ∧
    (∀ n ∈ [(1 : Nat), 8], (n : Int) = (kindOf .multitap 0 n).value 2 ∧ 1 ≤ n) ∧
    (∀ n ∈ [(1 : Int), 2, 3, 4], (kindOf .chorus 4 n).value 2 = n) ∧ (delay .held).state = .held ∧
    2 * (-1) ≤ (-1 : Int) ∧ (-1 : Int) < 2 * (-1) + 2 ∧ 63 < channelCount up.rate ∧
    up.claim 63 = some ⟨.free, none, 0⟩ := by decide +kernel

/-- A HALL at 10 s of DECAY, its gains computed. -/
def hall : Inst :=
  let c : Choice := { kind := .reverb, variant := some .hall, span := 0, taps := 0, voices := 0, mirror := false }
  let p (n : Nat) (v : Int) : Param := { ramping with num := n, value := ⟨v, 0⟩, ramp := none }
  { delay .running with choice := c, params := [p 2 1000, p 3 100, p 5 60], decay := decayOf .k48 c 200 50 }

theorem witness_damping_and_decay : hall.value 2 = 1000 ∧ hall.value 3 = 100 ∧ hall.value 5 = 60 ∧
    hall.decay = decayOf .k48 hall.choice hall.decay.decay hall.decay.size ∧ (reverbLengths hall.choice.variant).length = 8 ∧
    dampNow .k48 hall = 17313 ∧ dampNow .k48 { hall with ret := 240 } = 25041 ∧
    dampNow .k48 { hall with ret := 480 } = 17313 := by decide +kernel

/-- Bank 3 with failures in its list. -/
def failing (n : Nat) : State := (List.range n).foldl (fun s g => s.enterFailure 8191 g) up

theorem witness_ReadsFollowTheirOutcomes : up.mem.samplesWf = true ∧ up.mem.tableWf = true ∧ 127 < 128 ∧
    up.outcome [] 4 127 = .clean ∧ up.outcome [⟨4, 127, .corrected⟩] 4 127 = .corrected ∧
    (let s := up.modInteg fun x => { x with counted := [4] }
     4 ∈ s.integ.counted ∧ 4 ∉ s.integ.owed ∧ s.outcome [⟨4, 127, .corrected⟩] 4 127 = .corrected) ∧
    up.outcome [⟨4, 127, .uncorrectable⟩] 4 127 = .uncorrectable ∧ up.mem.bankFailed (4 / 2048) = false ∧
    up.outcome [⟨4, 127, .uncorrectable⟩] 6144 127 = .clean ∧
    up.outcome [⟨4, 127, .uncorrectable⟩, ⟨6144, 127, .corrected⟩] 6144 127 = .corrected ∧
    (failing 8).outcome [] 6144 127 = .uncorrectable ∧ (failing 8).mem.bankFailed (6144 / 2048) = true ∧
    up.pageOwner 4 = none ∧ .uncorrectable ∉ (up.np .a).errorMask := by decide +kernel

/-- A page of a running instance in state `x`, and the migration queue `q` at frame 1. -/
def paged (x : PageState) (q : List Queued) : State :=
  { withInst (mirrored .running) with
    mem := up.mem.setPage 4 x, integ := { up.integ with queue := q }, frame := 1 }

/-- A copy of page 4 to page 8,191 at a position. -/
def copied (pos : Nat) : State :=
  let s := paged (.allocated ⟨0, 0, 0, .primary⟩) []
  { s with mem := s.mem.setPage 8191 (.target 4),
           integ := { s.integ with copy := some ⟨4, 8191, ⟨0, 0, 0, .primary⟩, pos⟩ } }

theorem witness_FramesClearCopyAndCount : (∀ n ∈ [1, 16, 17], let s := copied n
    s.mem.samplesWf = true ∧ s.mem.tableWf = true ∧ s.integ.copy = some ⟨4, 8191, ⟨0, 0, 0, .primary⟩, n⟩ ∧
      s.mem.bankFailed (8191 / 2048) = false ∧ s.partner ⟨0, 0, 0, .primary⟩ = some 6144) ∧
    (∀ g ∈ List.range 8, (copied 1).outcome [] 4 (8 * (1 - 1) + g) ≠ .uncorrectable) ∧
    (copied 1).outcome [⟨4, 0, .uncorrectable⟩] 4 0 = .uncorrectable ∧
    (copied 1).outcome [⟨4, 0, .uncorrectable⟩] 6144 0 ≠ .uncorrectable ∧
    (let s := { up with vote := some ⟨⟨true, false, false⟩, 1, false⟩ }
     s.running = true ∧ s.vote = some ⟨⟨true, false, false⟩, 1, false⟩ ∧ ∀ p ∈ allPorts, (s.io p).silence < 4800) := by
  decide +kernel

theorem witness_PagesAreGivenByBanks : [8191, 5000, 2047].length ≤ 64 ∧ [8191, 5000, 2047].Nodup ∧
    (DelayMem.spareBuild [8191, 5000, 2047])[60]? = some 8175 ∧ up.mem.tableWf = true ∧ up.mem.bankFailed 3 = false ∧
    (up.mem.page 6144).isFree = true ∧ (up.mem.setPage 6144 (.free true)).page 6144 = .free true ∧
    (up.mem.setPage 6144 (.free true)).tableWf = true ∧ up.mem.mostFree none = some 0 ∧ up.mem.mostFree (some 0) = some 1 ∧
    (∀ b ∈ [0, 1, 2, 3], 5 ≤ up.mem.freeIn b) ∧ (up.mem.giveLine 0 0 5 false).pages = [0, 2048, 4096, 6144, 1] ∧
    (up.mem.giveLine 0 0 2 true).pages = [0, 4096] ∧ (up.mem.giveLine 0 0 2 true).mirrors = [2048, 6144] ∧
    (let m := (failing 8).mem
     m.tableWf = true ∧ m.bankFailed 3 = true ∧ 4 ≤ m.freePages ∧ (m.giveLine 0 0 4 false).pages = [0, 2048, 4096, 1] ∧
       (m.giveLine 0 0 2 true).pages = [0, 4096] ∧ (m.giveLine 0 0 2 true).mirrors = [2048, 1]) := by
  decide +kernel

theorem witness_RecallPassesReleaseSetAndForce : (∀ x ∈ [InstState.running, .held],
    (withInst (delay x)).inst 0 = some (delay x) ∧ (delay x).offer = none ∧ (delay x).owner = hA.port ∧
      takesAll (withInst (delay x)) hA = true ∧
      ((paramSpec .k48 (delay x).choice 3).bind fun sp => acceptValue .k48 sp none (.free 9)) = some (.free 9, []) ∧
      (let s := (withInst (delay x)).setRc .a ⟨some ⟨9, .now, none, 0, [.release 0 (.is .tail)]⟩, none⟩
       takesAll s hA = true ∧ (s.rc .a).record = none ∧ (s.inst 0).map Inst.tag = some none ∧
         s.itemFault .a [.release 0 (.is .tail)] (.release 0 (.is .tail)) = none)) ∧
    (∀ n ∈ [0, 3], let r : Record := ⟨9, .settling, .now, none, 0, none, [], n, 0, 0, 0, []⟩
      let s := (withInst { delay .draining with pages := 2 }).setRc .a ⟨none, some r⟩
      (s.rc .a).record = some r ∧ s.eligibleDrains .a 9 = [0]) := by decide +kernel

/-- A record of port A with a SET_PARAMS item on slot 0 and a CREATE item in slot 31, the old instance tagged. -/
theorem witness_records_applied : (let items := [RecallItem.setParams 0 [(3, .free 9)] none, .create 31 form none [] [] [] []]
    let s := (staged 9 .now items).setInst 0 (delay .running)
    takesAll s hA = true ∧ (s.rc .a).record = none ∧ (∀ x ∈ items, s.itemFault .a items x = none) ∧
      (let t := (up.setRc .a ⟨none, some (record .armed .now none none (items.map fun x => ⟨x, none⟩))⟩).setInst 0
         { delay .running with tag := some 9 }
       (∀ x ∈ items, t.itemStands .a 9 x = true) ∧ t.itemStands .b 9 (.release 0 (.is .tail)) = false ∧
         t.itemStands .a 8 (.release 0 (.is .tail)) = false)) ∧
    (∀ a ∈ [up.alloc, full.alloc], { up with alloc := a }.chargeTest .a formChoice =
      if a = up.alloc then none else some .noUnits) ∧ choiceOf .k48 form = (formChoice, []) := by decide +kernel

/-- A WAITING instance of port A in slot 1, and in slot 0 the instance `i`. -/
def queueing (i : Inst) (a : Alloc) : State :=
  let k : Kept := ⟨0, [], none, [], [], [], false, true, 480⟩
  { (withInst i).setInst 1 { newInst .a formChoice 80 (some 9) 480 0 with kept := some k } with
    alloc := { a with waiting := [1] } }

/-- R116: with two clearings left at the end of frame 0, the pages of an instance admitted there go before page 9 of the one
that has been in PRIMING since frame 1; one that went WAITING in frame 1 is admitted in frame 1. -/
theorem test_admission_at_a_frames_end : (let s := { up.setInst 2 { delay .priming with entered := 1 } with ending := true }
    let m : DelayMem := { up.mem with priming := [(9, 2)], clearLeft := 2 }
    (s.queueAtEnd [(4, 1), (5, 1)] m).priming = [(9, 2)] ∧ (s.queueAtEnd [(4, 1), (5, 1), (6, 1)] m).priming = [(6, 1), (9, 2)] ∧
      s.admissionFrame (delay .waiting) = 0 ∧ s.admissionFrame { delay .waiting with entered := 1 } = 1) := by
  decide +kernel

theorem witness_WaitingInstancesAreAdmitted :
    (let u : State := { queueing (delay .running) up.alloc with ending := true, mem := { up.mem with clearLeft := 2 } }
     u.frame = 0 ∧ ((u.inst 1).map Inst.entered) = some 0 ∧ u.ending = true ∧ u.chargeTest .a formChoice = none ∧
       u.mem.samplesWf = true ∧ u.mem.tableWf = true ∧ u.mem.priming = [] ∧ pagesNeeded u.rate formChoice ≤ u.mem.clearLeft) ∧
    (∀ a ∈ [up.alloc, full.alloc], let s := queueing { delay .fading with fade := 2401 } a
      s.running = true ∧ s.mem.tableWf = true ∧ s.ending = false ∧ (s.inst 1).map Inst.state = some .waiting ∧
        ((s.inst 1).bind Inst.kept).isSome = true ∧ s.alloc.waiting = [1] ∧
        s.chargeTest .a formChoice = (if a = up.alloc then none else some .noUnits)) ∧
    (let s := queueing offered chargedA
     takesAll s hB = true ∧ s.inst 0 = some offered ∧ offered.offer = some ⟨.b, 0⟩ ∧ offered.owner ≠ .b ∧
       s.moveTest .a .b offered.pages offered.units = none) := by decide +kernel

theorem witness_RequestsAreTakenAtTheHead :
    requestOf (.budget hA) = some (hA, 0x02) ∧ up.takes hA 0x02 = true ∧ State.reset.takes hA 0x02 = false ∧
    (let s (l : List QueuedReq) := up.setIo .a { up.io .a with queue := l }
     (s [⟨7, 0x02, []⟩]).takes hA 0x02 = true ∧ (s [⟨8, 0x02, []⟩]).takes hA 0x02 = false ∧
       (s [⟨7, 0x02, [0]⟩]).takes hA 0x02 = false ∧ malformed ⟨7, 0x02, [0]⟩ = true ∧ malformed ⟨7, 0x7F, []⟩ = true ∧
       (s [⟨7, 0x7F, []⟩]).portReady .a = true) ∧
    (let r : Reply := ⟨7, 0x82, .done, none, .empty⟩
     (replyFrame r)[5]? = some 0 ∧ (replyFrame r).length = 8 ∧
       (up.setIo .a { up.io .a with sending := some ⟨r, 0⟩ }).takes hA 0x02 = false ∧ 13 + 50 < 8 * 8 ∧ 8 * 8 ≤ 14 + 50) := by
  decide +kernel

theorem witness_RetirementFollowsThePage :
    (∀ x ∈ [PageState.free false, .free true, .spare true, .target 9, .retired, .allocated ⟨0, 0, 0, .primary⟩],
      (paged x []).mem.tableWf = true ∧ (paged x []).mem.page 4 = x ∧ (paged x []).mem.bankFailed (4 / 2048) = false ∧
        (paged x []).integ.requested = [] ∧ (paged x []).migrating 4 = false) ∧
    (paged (.free true) []).mem.spares.head? = some 8191 ∧
    (paged (.allocated ⟨0, 0, 0, .primary⟩) (List.replicate 8 ⟨9, 0⟩)).integ.queue.length = 8 ∧
    (paged (.allocated ⟨0, 0, 0, .primary⟩) [⟨4, 0⟩]).migrating 4 = true ∧ (failing 8).mem.bankFailed (8191 / 2048) = true ∧
    (∀ n ∈ [2, 3], let s := (paged (.free true) []).modInteg fun x => { x with watch := [⟨4, n, 0, false⟩] }
      4 ∉ s.integ.owed ∧ 4 ∉ s.integ.counted ∧ s.integ.watch = [⟨4, n, 0, false⟩]) := by decide +kernel

theorem witness_ChecksPassesAndCancelledCopies :
    (∀ x ∈ [PageState.free true, .spare true, .allocated ⟨0, 0, 0, .primary⟩], let s := paged x []
      s.mem.samplesWf = true ∧ s.mem.tableWf = true ∧ s.mem.page 4 = x ∧ s.mem.banks[0] = ⟨false, []⟩ ∧
        s.outcome [⟨4, 127, .uncorrectable⟩] 4 127 = .uncorrectable ∧ 4 ∉ s.integ.requested ∧ s.migrating 4 = false ∧
        s.mem.spares.head? = some 8191 ∧ s.partner ⟨0, 0, 0, .primary⟩ = some 6144 ∧
        s.outcome [⟨4, 127, .uncorrectable⟩] 6144 127 = .clean) ∧
    (withInst (delay .running)).partner ⟨0, 0, 0, .primary⟩ = none ∧
    (let s := copied 5
     s.mem.samplesWf = true ∧ s.mem.tableWf = true ∧ s.mem.page 8191 = .target 4 ∧ s.mem.bankFailed (4 / 2048) = false ∧
       s.mem.bankFailed (8191 / 2048) = false ∧ 8191 / 2048 = 3 ∧ 4 / 2048 = 0) := by decide +kernel

theorem witness_scrub_passed_over : (let s := { failing 8 with frame := 131056 }
    s.running = true ∧ s.mem.samplesWf = true ∧ s.mem.tableWf = true ∧ s.integ.visited = false ∧
      s.frame.toNat / s.rate.pick 16 32 % 8192 = 8191 ∧ s.mem.bankFailed (8191 / 2048) = true) ∧
    (let s := { up with mem := { up.mem.setPage 8191 (.allocated ⟨0, 0, 0, .primary⟩) with priming := [(8191, 0)] } }
     s.mem.page 8191 = .allocated ⟨0, 0, 0, .primary⟩ ∧ (8191, 0) ∈ s.mem.priming ∧ s.mem.tableWf = true) := by
  decide +kernel

theorem witness_copy_of_a_mirrored_page : (let s := paged (.allocated ⟨0, 0, 0, .primary⟩) [⟨4, 0⟩]
    s.running = true ∧ s.mem.tableWf = true ∧ s.mem.page 4 = .allocated ⟨0, 0, 0, .primary⟩ ∧ s.integ.copyTried = false ∧
      s.inst 0 = some (mirrored .running) ∧ s.mem.spares = [8191] ++ 6143 :: s.mem.spares.drop 2 ∧
      (s.partner ⟨0, 0, 0, .primary⟩).map (· / 2048) = some 3 ∧ 8191 / 2048 = 3 ∧ 6143 / 2048 ≠ 3) := by decide +kernel

theorem witness_append_late_or_unreadable :
    (let s := { up with integ := { up.integ with retired := [5], late := true } }
     s.running = true ∧ s.integ.append = none ∧ s.integ.recorded < s.integ.retired.length ∧ s.integ.late = true) ∧
    (let s := { up with integ := { up.integ with retired := [5], nv := ⟨[], false⟩ } }
     s.integ.append = none ∧ s.integ.recorded < s.integ.retired.length ∧ s.integ.nv.checkGood = false) := by decide

theorem witness_queue_full_reply : (∀ h ∈ [[], List.replicate 7 (7, 1), List.replicate 8 (7, 1)],
    let s := up.setIo .a
      { up.io .a with queue := List.replicate 8 ⟨7, 1, []⟩, held := h, sending := some ⟨⟨7, 0x82, .done, none, .empty⟩, 0⟩ }
    s.running = true ∧ s.linkUp .a = true ∧ (s.io .a).queue.length = 8 ∧ (s.io .a).held = h ∧ (s.io .a).sending ≠ none) ∧
    251 ≤ (251 : Byte).toNat ∧ (255 : Byte).toNat = 255 := by decide +kernel

theorem witness_canonical : up.mem.samplesWf = true ∧ up.mem.tableWf = true := by decide +kernel

theorem witness_ScrubVisitsAPageByItsState :
    (∀ x ∈ [PageState.free false, .free true, .spare false, .spare true, .retired, .target 5, .allocated ⟨0, 0, 0, .primary⟩],
      let s := { up with mem := up.mem.setPage 8191 x, frame := 131056 }
      s.running = true ∧ s.integ.visited = false ∧ s.frame.toNat % s.rate.pick 16 32 = 0 ∧
        s.frame.toNat / s.rate.pick 16 32 % 8192 = 8191 ∧ s.mem.page 8191 = x ∧ s.mem.samplesWf = true ∧ s.mem.tableWf = true ∧
        s.mem.bankFailed 3 = false ∧ s.integ.watch.length < 16 ∧ s.integ.owed = [] ∧ s.integ.queue = [] ∧ s.integ.copy = none) ∧
    { up with frame := 1 }.frame.toNat % up.rate.pick 16 32 ≠ 0 := by decide +kernel

theorem witness_FailureListsFillAndExpire : (∀ n ∈ [0, 6, 7], ((failing n).mem.banks[3]).failures.length = n ∧
    ((failing n).mem.banks[3]).failed = false ∧ (failing n).mem.tableWf = true ∧ (failing n).integ.copy = none ∧
      (failing n).running = true) ∧ ((failing 8).mem.banks[3]).failed = true ∧ 8191 / 2048 = 3 := by decide +kernel

/-- A queue with one page, or a copy at a position. -/
def queued (spares : List Nat) : State :=
  { withInst (delay .running) with
    mem := { up.mem.setPage 4 (.allocated ⟨0, 0, 0, .primary⟩) with spares := spares },
    integ := { up.integ with queue := [⟨4, 0⟩] }, frame := 1 }
def copying (pos : Nat) : State :=
  { queued up.mem.spares with integ := { up.integ with copy := some ⟨4, 8191, ⟨0, 0, 0, .primary⟩, pos⟩ } }

theorem witness_CopiesStartAndComplete : (∀ l ∈ [[], up.mem.spares], let s := queued l
    s.running = true ∧ s.mem.tableWf = true ∧ s.integ.copy = none ∧ s.integ.queue = [⟨4, 0⟩] ∧ s.integ.copyTried = false ∧
      (0 : FrameNo) ≠ s.frame ∧ s.mem.page 4 = .allocated ⟨0, 0, 0, .primary⟩ ∧ s.inst 0 = some (delay .running) ∧
      s.partner ⟨0, 0, 0, .primary⟩ = none ∧ s.mem.spares = l) ∧ up.mem.spares.head? = some 8191 ∧
    (∀ n ∈ [16, 17], (copying n).running = true ∧ (copying n).mem.tableWf = true ∧ (copying n).inst 0 = some (delay .running) ∧
      (copying n).integ.copy = some ⟨4, 8191, ⟨0, 0, 0, .primary⟩, n⟩) := by decide +kernel

/-- The list holds one page that is not recorded. -/
def unrecorded (a : Option Append) : State := { up with integ := { up.integ with retired := [5], append := a } }

theorem witness_AppendsRecordTheList : (∀ a ∈ [none, some ⟨0, 1⟩, some ⟨1, 1⟩],
    (unrecorded a).running = true ∧ (unrecorded a).integ.append = a ∧
      (unrecorded a).integ.recorded < (unrecorded a).integ.retired.length ∧ (unrecorded a).integ.nv.checkGood = true) ∧
    up.integ.retired.length ≤ up.integ.recorded := by decide

/-! ## States that meet the hypotheses of single clauses -/

/-- A poisoned frame of an instance that reads in a FAILED bank and writes in an OK one. -/
theorem witness_poisoned_frame_in_memory : (let l : Line := ⟨481, [6144, 5], [], 1025, 0⟩
    let i := { delay .running with lines := [l] }
    let s := { failing 8 with insts := (withInst i).insts }
    s.inst 0 = some i ∧ s.mem.samplesWf = true ∧ s.mem.tableWf = true ∧ 0 < lineCount i.choice ∧
      5 * 1024 + 1 ∈ l.stores none ∧ s.integ.copy = none ∧ s.mem.bankFailed (5 * 1024 / 1024 / 2048) = false ∧
      ((s.runInst quiet [] 0).inst 0).map Inst.poisoned = some true) := by decide +kernel

/-- Pages as a first CORRECTED read counts them, and a pair of groups that are both lost. -/
theorem witness_errors_told : 4 ∉ up.integ.counted ∧ 4 ∉ up.integ.owed ∧ up.migrating 4 = false ∧ (up.mem.page 4).isFree = true ∧
    up.integ.watch = [] ∧ up.outcome [⟨4, 127, .uncorrectable⟩, ⟨6144, 127, .uncorrectable⟩] 6144 127 = .uncorrectable ∧
    up.mem.bankFailed (6144 / 2048) = false := by decide +kernel

/-- A page that is primed in a frame, and one that is left in the queue. -/
theorem witness_frame_clears : (let q : List (Nat × Nat) := [(4, 0), (5, 0), (6, 0), (7, 0), (8, 0)]
    ∀ n ∈ [4, 5], let s := { withInst (delay .priming) with mem := { up.mem with priming := q.take n } }
      s.running = true ∧ (s.takeEnded.engineRestart.takeStarting quiet.faults).mem.priming = q.take n ∧
        s.mem.bankFailed (4 / 2048) = false ∧ decide (∀ x, x ∈ (q.take n).drop 4 → x.2 ≠ 0) = decide (n = 4)) := by
  decide +kernel

/-- An instance whose pages are apart, none a spare, with a page in the migration queue or none. -/
theorem witness_pages_returned : (∀ q ∈ [[], [(⟨4, 0⟩ : Queued)]],
    let s := { withInst { delay .draining with quiet := 4800 } with integ := { up.integ with queue := q } }
    (State.instPages (delay .draining)).Nodup ∧ (∀ p ∈ State.instPages (delay .draining), p ∉ s.mem.spares ∧ p < 8192) ∧
      s.integ.copy = none ∧ s.integ.queue = q) := by decide +kernel

/-- R102: what LINK_TEMPO refuses, and in what order. -/
theorem witness_link_tempo_refused : takesAll up hA = true ∧ takesAll up hB = true ∧ up.inst 31 = none ∧
    told (after (.linkTempo hA 32 (some 0)) up) = some (.refused, some .badArgument) ∧
    told (after (.linkTempo hA 31 (some 4)) up) = some (.refused, some .badArgument) ∧
    told (after (.linkTempo hA 31 (some 3)) up) = some (.refused, some .badState) ∧
    (∀ x ∈ [InstState.waiting, .draining, .fading], let s := withInst (delay x)
      takesAll s hB = true ∧ s.inst 0 = some (delay x) ∧ (delay x).owner ≠ hB.port ∧
        told (after (.linkTempo hA 0 (some 0)) s) = some (.refused, some .badState)) := by decide +kernel

/-- What other ports are told of: port B's instance is offered to port A, and counts at port A's clock 3. -/
theorem witness_others_told :
    (let i : Inst := { delay .running with owner := .b, offer := some ⟨.a, 9⟩, link := some 3 }
     let s := (withInst i).modClock 3 fun c => { c with owner := some .a, linked := ⟨0, 1, 0⟩ }
     takesAll s hA = true ∧ s.linkUp .b = true ∧ s.inst 0 = some i ∧ (s.clock 3).map Clock.owner = some (some .a) ∧
       (∀ t ∈ [after (.portClear hA) s], (t.clock 3).map (fun c => (c.owner, c.linked.b, c.fpb)) = some (none, 1, 6144000) ∧
         ((t.np .b).classes.get NoticeClass.tempo.idx).count = 1 ∧
         ((t.np .b).classes.get NoticeClass.handover.idx).count = 1)) := by decide +kernel

/-- R117, R118, R131, R139: the eighth group of a bank with a page in the queue, one in the watch table and a copy from it or
to it. -/
theorem witness_bank_failure_integrity : (∀ c ∈ [(⟨6144, 5, ⟨0, 0, 0, .primary⟩, 3⟩ : Copy), ⟨4, 8191, ⟨0, 0, 0, .primary⟩, 3⟩,
      ⟨4, 5, ⟨0, 0, 0, .primary⟩, 3⟩],
    let s := (failing 7).modInteg fun x =>
      { x with copy := some c, queue := [⟨6145, 0⟩, ⟨9, 0⟩], watch := [⟨6146, 1, 0, true⟩], owed := [6147], reported := [6147] }
    s.mem.tableWf = true ∧ s.mem.banks[3].failed = false ∧ s.mem.banks[3].failures.length = 7 ∧
      (∀ f ∈ s.mem.banks[3].failures, f.page ≠ 8191 ∨ f.group ≠ 7) ∧ c.target < 8192 ∧ s.integ.copy = some c) := by
  decide +kernel

/-- R130: a full watch table with two entries of the lowest count, of which the older one goes. -/
theorem witness_full_watch_table : (let w (n : Nat) : Watch := ⟨100 + n, if n = 3 ∨ n = 7 then 1 else 2, 0, true⟩
    let l := (List.range 16).map w
    let s := up.modInteg fun x => { x with watch := l }
    s.integ.watch = l.take 3 ++ w 3 :: l.drop 4 ∧ 16 ≤ l.length ∧ (∀ x ∈ l.take 3 ++ l.drop 4, x.page ≠ (w 3).page) ∧
      (∀ x ∈ l.take 3, (w 3).count < x.count) ∧
      (∀ x ∈ l.drop 4, (w 3).count < x.count ∨ ((w 3).count = x.count ∧ s.since x.first ≤ s.since (w 3).first)) ∧
      (∀ x ∈ l, x.page ≠ 4) ∧ s.migrating 4 = false) := by decide +kernel

/-- What the laws of the pool and of the links ask of a state with an instance in use: a page at its place, a spare in the
pool, the count of 64, a link that is counted. -/
theorem witness_pool_and_links :
    (let s := { withInst (delay .running) with
                mem := (up.mem.setPage 4 (.allocated ⟨0, 0, 0, .primary⟩)).setPage 5 (.allocated ⟨0, 0, 1, .primary⟩) }
     s.pageAt ⟨0, 0, 0, .primary⟩ = some 4 ∧ s.pageAt ⟨0, 0, 1, .primary⟩ = some 5 ∧ s.pageAt ⟨0, 0, 2, .primary⟩ = none ∧
       s.mem.page 4 = .allocated ⟨0, 0, 0, .primary⟩ ∧ s.mem.page 5 = .allocated ⟨0, 0, 1, .primary⟩ ∧
       (s.mem.table.countP fun c => decide (c.1 ≠ 4 ∧ c.1 ≠ 5)) = 64 ∧ s.mem.tableWf = true ∧
       (s.mem.spares.all fun p => (s.mem.page p).isSpare) = true ∧ s.mem.spares.length = 64 ∧ s.mem.spares.Nodup ∧
       s.integ.retired = [] ∧ s.integ.copy = none ∧ s.integ.queue = [] ∧
       (delay .running).lines.length = lineCount (delay .running).choice) ∧
    (let s := (withInst { delay .running with link := some 3 }).modClock 3 fun c => { c with linked := ⟨1, 0, 0⟩ }
     ((s.clock 3).map fun c => c.linked.get .a) =
       some ((List.range 32).countP fun n => (s.inst n).any fun i => decide (i.owner = .a ∧ i.link = some 3))) := by
  decide +kernel

/-! ## States that meet the hypotheses of the statements on the course of a frame -/

theorem witness_frame_runs (s : State) (f : FrameIn) (h : s.running = true) : ∃ t u v, FrameRuns s f t u v :=
  ⟨s.runFrame f, _, Nat.rec _ fun k x => x.runInst f ((s.takeEnded.engineRestart.takeStarting f.faults).inputs f) k,
    by simp [exec, execFrame, State.whileRunning, h], rfl, rfl, fun _ _ => rfl⟩

/-- Lane 0 SYNCED in half of its gate, with samples of its last good frame, lane 1 LOST. -/
def heard : State :=
  { up with lanes := { up.lanes with
    gate := 63, inputs := #v[{ Lane.reset with synced := true, gate := 32, last := [7, -101] }, Lane.reset, Lane.reset, Lane.reset] } }

/-- R157, R160: both gates truncate toward zero; a bad frame gives the last good sample, a LOST lane zero. -/
theorem test_input_values : heard.channelIn { quiet with channels := [101, -101] } 0 = 49 ∧
    heard.channelIn { quiet with channels := [101, -101] } 1 = -49 ∧
    heard.channelIn { quiet with laneGood := Vector.replicate 4 false } 0 = 2 ∧
    heard.channelIn { quiet with channels := List.replicate 64 8388607 } 16 = 0 ∧
    { delay .running with sends := #v[some { live with chan := 1 }, none, some { live with gain := 1, chan := 0 }, none] }.hears
      (heard.channelIn { quiet with channels := [101, -101] }) = -49 * 100 + 49 := by decide +kernel

/-- R169: 6.25 characters of a reply of 8 go in a frame; R167: the runs of a port that is DOWN and of one that is UP. -/
theorem witness_ports_in_a_frame : (∀ x ∈ [{ PortIo.reset with run := 479 }, { PortIo.reset with up := true, silence := 4799 },
      { PortIo.reset with up := true, queue := [⟨7, 0x7F, []⟩], sending := some ⟨⟨7, 0x82, .done, none, .empty⟩, 13⟩ },
      { PortIo.reset with up := true, queue := [⟨7, 0x7F, []⟩], answer := some ⟨7, 0x82, .done, none, .empty⟩ }],
    (up.setIo .a x).io .a = x ∧ up.vote = none ∧ (x.up = true → x.silence < 4800) ∧ (x.up = false → x.run < 480)) ∧
    malformed ⟨7, 0x7F, []⟩ = true ∧
    (let x := { PortIo.reset with up := true, queue := [⟨7, 0x7F, []⟩] }
     State.transmit .k48 x = x) ∧
    (replyFrame ⟨7, 0x82, .done, none, .empty⟩).length = 8 ∧ 13 + 50 < 8 * 8 ∧ 8 * 8 ≤ 14 + 50 := by decide +kernel

/-- The groups of a mirrored line that one read of two heads touches. -/
theorem witness_groups_of_a_read : (mirrored .running).touched [⟨0, [256, 2560], 0⟩] =
      [(5, some 6145, 0), (4, some 6144, 127), (4, some 6144, 126), (4, some 6144, 126)] ∧
    (let s := withInst (mirrored .running)
     s.mem.samplesWf = true ∧ s.mem.tableWf = true ∧ (mirrored .running).state = .running ∧
       (readGroup [⟨5, 0, .uncorrectable⟩] s 5 (some 6145) 0).2 = some 6145 ∧
       (readGroup [⟨5, 0, .uncorrectable⟩, ⟨6145, 0, .uncorrectable⟩] s 5 (some 6145) 0).2 = none) := by decide +kernel

/-- R31: the takes of the input and of the feedback write clamp, those of the outputs do not; the count stops at 65,535. -/
theorem test_saturation : ∀ c ∈ [(10, 12), (65534, 65535)],
    (outputInst .k48 { delay .running with saturation := c.1 } (8388607 * 40000) [8388607] false).1.saturation = c.2 := by
  decide +kernel

theorem witness_end_of_a_frame : (let s := { up with integ := { up.integ with watch := [⟨0, 1, 0, true⟩, ⟨9, 1, 0, true⟩] } }
     s.running = true ∧ (s.takeEnded.engineRestart.takeStarting []).integ.passDue = some 0 ∧
       (s.takeEnded.engineRestart.takeStarting []).integ.watch = s.integ.watch) ∧
    (let s := { up with mem := up.mem.setPage 0 (.free true) }
     let u := s.takeEnded.engineRestart.takeStarting [⟨0, 3, .uncorrectable⟩]
     s.running = true ∧ u.integ.append = none ∧ u.integ.recorded < u.integ.retired.length) ∧
    (let s := { up with integ := { up.integ with append := some ⟨5, 1⟩ } }
     (s.takeEnded.engineRestart.takeStarting []).integ.append = some ⟨5, 1⟩) ∧
    up.integ.append = none ∧ up.integ.retired.length ≤ up.integ.recorded := by decide +kernel

theorem witness_map_refused : takesAll (withInst (delay .running)) hA = true ∧ 31 < 32 ∧ 8 < 9 ∧
    (withInst (delay .running)).inst 0 = some (delay .running) ∧ (delay .running).lines[1]? = none ∧
    (delay .running).choice.mirror = false ∧ ((delay .running).lines[0]?.map fun l => decide (l.pages.length ≤ 2)) = some true := by
  decide +kernel

theorem witness_reverb_created : (let f : CreateForm := ⟨.is .reverb, .is .hall, none, none, none, .is false, none⟩
    takesAll up hA = true ∧ formOk f = true ∧ up.inst 31 = none ∧ choiceOf .k48 f = (hall.choice, [])) ∧
    up.chargeTest .a hall.choice = none ∧ (∀ n ∈ [2, 3], (paramSpec .k48 hall.choice n).isSome = true) := by
  decide +kernel

theorem witness_paths_refused : (∀ x ∈ [InstState.waiting, .draining, .fading],
      takesAll (withInst (delay x)) hA = true ∧ takesAll (withInst (delay x)) hB = true ∧
        (withInst (delay x)).inst 0 = some (delay x) ∧ (delay x).state = x ∧ (delay x).owner = .a) ∧
    takesAll up hA = true ∧ up.inst 31 = none ∧ channelCount up.rate ≤ 64 ∧ 63 < channelCount up.rate ∧ 3 < 4 ∧ 1 < 2 ∧
    hB.port ≠ .a := by decide +kernel

/-- R150: with one page short the older of two drains is forced and the other stays; with three, both, in that order. -/
theorem test_forcing_stops : (∀ n ∈ [(1, [1]), (3, [1, 0])],
    let s := ((withInst { delay .draining with pages := 2, drainStart := 9 }).setInst 1 { delay .draining with pages := 2 })
    let t := State.forceDrains .a 9 32 ({ s with frame := 10 }.setRc .a
      ⟨none, some ⟨9, .settling, .now, none, 0, none, [], n.1, 0, 0, 0, []⟩⟩)
    ((t.rc .a).record.map Record.forced) = some n.2) := by decide +kernel

theorem witness_port_clear_fades : (∀ x ∈ [InstState.waiting, .priming, .running, .held, .draining, .fading],
    takesAll (withInst (delay x)) hA = true ∧ takesAll (withInst (delay x)) hB = true ∧
      (withInst (delay x)).inst 0 = some (delay x) ∧ (delay x).owner = hA.port ∧ (delay x).owner ≠ hB.port ∧
      (delay x).state = x) := by decide +kernel

/-- What the laws ask of the state at reset, and a step from it that answers. -/
theorem witness_laws : State.reset.alloc.pageExcess State.reset.straps ≤ pageCommon State.reset.straps ∧
    State.reset.alloc.unitExcess State.reset.straps ≤ unitCommon State.reset.straps ∧ State.reset.mem.samplesWf = true ∧
    State.reset.mem.tableWf = true ∧ fpbOf State.reset.rate 12000 = 6144000 ∧
    (∀ p ∈ allPorts, (State.reset.np p).stack = [] ∧ (State.reset.np p).base = 0) := by decide +kernel

theorem witness_step : step { State.reset with pending := [.tapLineEdge] } = .next State.reset.tapEdge := rfl

end Sys2Proof.Tests
end

section
/-! Signal arithmetic (chapter 2): what the take, the interpolation, the damping step and the coefficients in effect do,
and the statements on them (O4, O5, O6). -/
namespace Sys2Proof.Signal
open Sys2Proof.Machine

/-! ## Clamps and takes (R27, R30, R31) -/

theorem clampInt_eq (lo hi x : Int) (h : lo ≤ hi) : clampInt lo hi x = max lo (min hi x) := by
  unfold clampInt
  split
  · omega
  · split <;> omega

theorem le_clampSample (x : Int) : -8388608 ≤ clampSample x := by
  rw [clampSample, clampInt_eq _ _ _ (by decide)]
  omega

theorem clampSample_le (x : Int) : clampSample x ≤ 8388607 := by
  rw [clampSample, clampInt_eq _ _ _ (by decide)]
  omega

theorem clampSample_eq_self_iff (x : Int) : clampSample x = x ↔ -8388608 ≤ x ∧ x ≤ 8388607 := by
  rw [clampSample, clampInt_eq _ _ _ (by decide)]
  omega

theorem take_mem_range (e A : Int) : -8388608 ≤ take e A ∧ take e A ≤ 8388607 :=
  ⟨le_clampSample _, clampSample_le _⟩

@[simp] theorem take_zero_zero : take 0 0 = 0 := by decide

theorem takeClamps_eq (e A : Int) :
    takeClamps e A = if -8388608 ≤ takeQuotient e A ∧ takeQuotient e A ≤ 8388607 then 0 else 1 :=
  if_congr (clampSample_eq_self_iff _) rfl rfl

/-- The quotient rounded toward minus infinity is the one integer between whose multiples the dividend lies. -/
theorem ediv_eq_of_bounds {n d q : Int} (hd : 0 < d) (h : d * q ≤ n) (h' : n < d * (q + 1)) : n / d = q := by
  apply le_antisymm
  · exact Int.lt_add_one_iff.mp ((Int.ediv_lt_iff_lt_mul hd).mpr (by rwa [mul_comm]))
  · exact (Int.le_ediv_iff_mul_le hd).mpr (by rwa [mul_comm])

theorem takeQuotient_eq {e A q : Int} (h : q * 2 ^ (15 - e).toNat ≤ A + 2 ^ (14 - e).toNat)
    (h' : A + 2 ^ (14 - e).toNat < (q + 1) * 2 ^ (15 - e).toNat) : takeQuotient e A = q :=
  ediv_eq_of_bounds (by positivity) (by rwa [mul_comm]) (by rwa [mul_comm])

/-- Settles O4: the bounds of the statement fix the quotient. -/
theorem takeRoundsHalvesUpAndClamps : Obligations.TakeRoundsHalvesUpAndClamps := by
  intro e A q _ _ h h'
  have hq := takeQuotient_eq h h'
  refine ⟨?_, by rw [takeClamps_eq, hq]⟩
  rw [take, hq, clampSample, clampInt]
  split
  · rw [if_neg (by omega)]
  · rfl

/-! ## Interpolation and damping (R33, R34)

Both move from a start toward an end by a fraction `k / d`, rounded to nearest: the move has the sign of the way and is
not longer than the way. -/

theorem roundedShare_bounds {w k d c : Int} (hk : 0 ≤ k) (hkd : k ≤ d) (hc : 0 ≤ c) (hcd : c < d) :
    min 0 w ≤ (w * k + c) / d ∧ (w * k + c) / d ≤ max 0 w := by
  have hd : 0 < d := by omega
  rcases le_total 0 w with hw | hw
  · have h0 : 0 ≤ w * k := mul_nonneg hw hk
    have h1 : w * k ≤ w * d := mul_le_mul_of_nonneg_left hkd hw
    rw [min_eq_left hw, max_eq_right hw]
    refine ⟨(Int.le_ediv_iff_mul_le hd).mpr (by omega), Int.lt_add_one_iff.mp ((Int.ediv_lt_iff_lt_mul hd).mpr ?_)⟩
    rw [add_mul]
    omega
  · have h0 : w * k ≤ 0 := mul_nonpos_of_nonpos_of_nonneg hw hk
    have h1 : w * d ≤ w * k := mul_le_mul_of_nonpos_left hkd hw
    rw [min_eq_right hw, max_eq_left hw]
    refine ⟨(Int.le_ediv_iff_mul_le hd).mpr (by omega), Int.lt_add_one_iff.mp ((Int.ediv_lt_iff_lt_mul hd).mpr ?_)⟩
    omega

theorem interpolate_between (a b : Int) {f : Nat} (hf : f ≤ 255) :
    min a b ≤ interpolate a b f ∧ interpolate a b f ≤ max a b := by
  have h := roundedShare_bounds (w := b - a) (k := f) (d := 256) (c := 128) (by omega) (by omega) (by omega) (by omega)
  unfold interpolate
  omega

theorem dampStep_between (s y : Int) {k : Int} (hk : 0 ≤ k) (hk' : k ≤ 32768) :
    min s y ≤ dampStep s y k ∧ dampStep s y k ≤ max s y := by
  have h := roundedShare_bounds (w := y - s) (d := 32768) (c := 16384) hk hk' (by omega) (by omega)
  unfold dampStep
  omega

@[simp] theorem dampStep_zero (s y : Int) : dampStep s y 0 = s := by simp [dampStep]

/-- The bypass passes the read through (R34). -/
@[simp] theorem dampStep_bypass (s y : Int) : dampStep s y 32768 = y := by
  unfold dampStep
  omega

/-! ## The DAMP table (R34, R52) -/

/-- One point of the DAMP table below another: its frequency lies lower, and its coefficients are no larger. -/
def DampBelow (p q : Int × Int × Int) : Prop := p.1 < q.1 ∧ p.2.1 ≤ q.2.1 ∧ p.2.2 ≤ q.2.2

theorem dampTable_rises : dampTable.IsChain DampBelow := by
  simp [dampTable, DampBelow]

theorem pick_mono {a b c d : Int} (r : Rate) (h : a ≤ c) (h' : b ≤ d) : r.pick a b ≤ r.pick c d := by
  cases r
  · exact h
  · exact h'

/-- The straight line between two points with `k0 ≤ k1` rises from `k0` to `k1`. -/
theorem segment_mono {k0 k1 d0 d1 x y : Int} (hk : k0 ≤ k1) (hd : d0 < d1) (h0 : d0 ≤ x) (hxy : x ≤ y) (h1 : y ≤ d1) :
    k0 ≤ k0 + Int.tdiv ((k1 - k0) * (x - d0)) (d1 - d0) ∧
    k0 + Int.tdiv ((k1 - k0) * (x - d0)) (d1 - d0) ≤ k0 + Int.tdiv ((k1 - k0) * (y - d0)) (d1 - d0) ∧
    k0 + Int.tdiv ((k1 - k0) * (y - d0)) (d1 - d0) ≤ k1 := by
  have hw : 0 ≤ k1 - k0 := by omega
  have hx : 0 ≤ (k1 - k0) * (x - d0) := mul_nonneg hw (by omega)
  have hy : 0 ≤ (k1 - k0) * (y - d0) := mul_nonneg hw (by omega)
  have hd' : 0 < d1 - d0 := by omega
  rw [Int.tdiv_eq_ediv_of_nonneg hx, Int.tdiv_eq_ediv_of_nonneg hy]
  have low := Int.ediv_nonneg hx hd'.le
  have mid := Int.ediv_le_ediv hd' (mul_le_mul_of_nonneg_left (show x - d0 ≤ y - d0 by omega) hw)
  have high := Int.ediv_le_of_le_mul hd' (mul_le_mul_of_nonneg_left (show y - d0 ≤ d1 - d0 by omega) hw)
  omega

/-- On a table whose points rise, the coefficient between the points rises with the frequency, from that of the first
point (R52). -/
theorem dampBetween_mono (r : Rate) {x y : Int} (hxy : x ≤ y) :
    ∀ (l : List (Int × Int × Int)) (p : Int × Int × Int), (p :: l).IsChain DampBelow → p.1 ≤ x →
      r.pick p.2.1 p.2.2 ≤ dampBetween r x (p :: l) ∧ dampBetween r x (p :: l) ≤ dampBetween r y (p :: l)
  | [], (_, _, _), _, _ => ⟨le_rfl, le_rfl⟩
  | q :: l, p, hl, hp => by
    obtain ⟨d0, a0, b0⟩ := p
    obtain ⟨d1, a1, b1⟩ := q
    obtain ⟨⟨hd, ha, hb⟩, ht⟩ := List.isChain_cons_cons.mp hl
    have hk : r.pick a0 b0 ≤ r.pick a1 b1 := pick_mono r ha hb
    have tail : ∀ z, d1 ≤ z → r.pick a1 b1 ≤ dampBetween r z ((d1, a1, b1) :: l) := fun z hz =>
      (dampBetween_mono r le_rfl l (d1, a1, b1) ht hz).1
    simp only [dampBetween]
    by_cases hy : y ≤ d1
    · rw [if_pos hy, if_pos (hxy.trans hy)]
      exact ⟨(segment_mono hk hd hp hxy hy).1, (segment_mono hk hd hp hxy hy).2.1⟩
    · rw [if_neg hy]
      by_cases hx : x ≤ d1
      · rw [if_pos hx]
        have seg := segment_mono hk hd hp le_rfl hx
        exact ⟨seg.1, seg.2.2.trans (tail y (by omega))⟩
      · rw [if_neg hx]
        have ih := dampBetween_mono r hxy l (d1, a1, b1) ht (by simp only; omega)
        exact ⟨hk.trans ih.1, ih.2⟩

theorem dampCoefficient_mono (r : Rate) {x y : Int} (hx : 10 ≤ x) (hxy : x ≤ y) (hy : y < 200) :
    0 ≤ dampCoefficient r x ∧ dampCoefficient r x ≤ dampCoefficient r y := by
  unfold dampCoefficient
  rw [if_neg (by omega), if_neg (by omega)]
  have h := dampBetween_mono r hxy _ _ dampTable_rises hx
  refine ⟨le_trans ?_ h.1, h.2⟩
  cases r <;> decide

theorem dampCoefficient_le (r : Rate) {x : Int} (hx : 10 ≤ x) (hx' : x < 200) : dampCoefficient r x ≤ 32767 :=
  (dampCoefficient_mono r hx (show x ≤ 199 by omega) (by omega)).2.trans (by cases r <;> decide)

@[simp] theorem dampCoefficient_bypass (r : Rate) : dampCoefficient r 200 = 32768 := if_pos (by decide)

@[simp] theorem dampInEffect_held (r : Rate) (ret : Nat) (damp : Int) : dampInEffect r true ret damp = 32768 := rfl

@[simp] theorem dampInEffect_steady (r : Rate) (damp : Int) : dampInEffect r false 0 damp = dampCoefficient r damp := rfl

/-- The damping coefficient in frame `j` of a return (R36). -/
theorem dampInEffect_return (r : Rate) {j : Nat} (damp : Int) (h : 1 ≤ j) (h' : j ≤ r.pick 480 960) :
    dampInEffect r false j damp =
      32768 + Int.tdiv ((dampCoefficient r damp - 32768) * j) (r.pick 480 960 : Nat) := by
  simp [dampInEffect, along, show j ≠ 0 by omega, min_eq_left h']

/-- A line starts with its damping state at 0 (R34). -/
theorem damp_eq_zero_of_mem_giveLines (slot : Nat) (mirrored : Bool) :
    ∀ (caps : List Nat) (first : Nat) (m : DelayMem) (l : Line),
      l ∈ (DelayMem.giveLines slot mirrored first caps m).2.1 → l.damp = 0
  | [], _, _, _, h => nomatch h
  | _ :: caps, first, _, l, h => by
    rcases List.mem_cons.mp h with rfl | h
    · rfl
    · exact damp_eq_zero_of_mem_giveLines slot mirrored caps (first + 1) _ l h

/-- Settles O5. -/
theorem readsAndDampingLieBetween : Obligations.ReadsAndDampingLieBetween := by
  refine ⟨fun a b f hf => ⟨fun q h h' => ?_, (interpolate_between a b hf).1, (interpolate_between a b hf).2, ?_, ?_⟩,
    fun s y k hk hk' => ⟨fun q h h' => ?_, (dampStep_between s y hk hk').1, (dampStep_between s y hk hk').2,
      dampStep_zero s y, dampStep_bypass s y⟩,
    fun r damp ret => ⟨dampInEffect_held r ret damp, dampCoefficient_bypass r, fun h h' => ?_⟩,
    fun slot mirrored first caps m l hl => damp_eq_zero_of_mem_giveLines slot mirrored caps first m l hl⟩
  · rw [interpolate, ediv_eq_of_bounds (by decide) h h']
  · rintro rfl
    simp [interpolate]
  · rintro rfl
    simp [interpolate]
  · rw [dampStep, ediv_eq_of_bounds (by decide) h h']
  · exact ⟨(dampCoefficient_mono r h le_rfl h').1, dampCoefficient_le r h h',
      fun d hd hd' => (dampCoefficient_mono r hd hd' h').2⟩

/-! ## Feedback and cross-feed in effect (R35, R36, R61, R63) -/

theorem clampFeedback_eq (c : Int) : clampFeedback c = max (-32440) (min 32440 c) := clampInt_eq _ _ _ (by decide)

theorem natAbs_clampFeedback_le (c : Int) : (clampFeedback c).natAbs ≤ 32440 := by
  rw [clampFeedback_eq]
  omega

@[simp] theorem feedbackInEffect_held (r : Rate) (ret : Nat) (p : Int) : feedbackInEffect r true ret p = 32767 := rfl

theorem feedbackInEffect_steady (r : Rate) (p : Int) : feedbackInEffect r false 0 p = clampFeedback p := by
  simp [feedbackInEffect]

/-- The feedback coefficient in frame `j` of a return (R36). -/
theorem feedbackInEffect_return (r : Rate) {j : Nat} (p : Int) (h : 1 ≤ j) (h' : j ≤ r.pick 480 960) :
    feedbackInEffect r false j p =
      clampFeedback (32767 + Int.tdiv ((p - 32767) * j) (r.pick 480 960 : Nat)) := by
  simp [feedbackInEffect, along, show j ≠ 0 by omega, min_eq_left h']

theorem natAbs_feedbackInEffect_le (r : Rate) (ret : Nat) (p : Int) : (feedbackInEffect r false ret p).natAbs ≤ 32440 := by
  simp only [feedbackInEffect, Bool.false_eq_true, if_false]
  split <;> exact natAbs_clampFeedback_le _

/-- What the limit of R61 leaves of CROSS: its magnitude held to the room beside the feedback, its sign kept. -/
theorem limitCross_spec (cross : Int) {fb : Int} (h : fb.natAbs ≤ 32440) :
    (limitCross cross fb).natAbs = min cross.natAbs (32440 - fb.natAbs) ∧
    (0 ≤ cross → 0 ≤ limitCross cross fb) ∧ (cross ≤ 0 → limitCross cross fb ≤ 0) := by
  simp only [limitCross]
  (repeat' split) <;> omega

@[simp] theorem crossInEffect_held (r : Rate) (ret : Nat) (cross fb : Int) : crossInEffect r true ret cross fb = 0 := rfl

theorem crossInEffect_steady (r : Rate) (cross fb : Int) : crossInEffect r false 0 cross fb = limitCross cross fb := by
  simp [crossInEffect]

/-- The cross coefficient in frame `j` of a return (R63). -/
theorem crossInEffect_return (r : Rate) {j : Nat} (cross fb : Int) (h : 1 ≤ j) (h' : j ≤ r.pick 480 960) :
    crossInEffect r false j cross fb = limitCross (Int.tdiv (cross * j) (r.pick 480 960 : Nat)) fb := by
  simp [crossInEffect, along, show j ≠ 0 by omega, min_eq_left h']

theorem natAbs_crossInEffect_add_le (r : Rate) (ret : Nat) (cross : Int) {fb : Int} (h : fb.natAbs ≤ 32440) :
    (crossInEffect r false ret cross fb).natAbs + fb.natAbs ≤ 32440 := by
  have limit : ∀ c, (limitCross c fb).natAbs + fb.natAbs ≤ 32440 := fun c => by
    have := (limitCross_spec c h).1
    omega
  simp only [crossInEffect, Bool.false_eq_true, if_false]
  split <;> exact limit _

/-- Settles O6. -/
theorem feedbackStaysBelowUnity : Obligations.FeedbackStaysBelowUnity := fun r ret p cross =>
  ⟨feedbackInEffect_held r ret p, natAbs_feedbackInEffect_le r ret p,
    fun j h h' => by rw [feedbackInEffect_return r p h h', clampFeedback_eq],
    (feedbackInEffect_steady r p).trans (clampFeedback_eq p),
    fun fb hfb => ⟨crossInEffect_held r ret cross fb, natAbs_crossInEffect_add_le r ret cross hfb,
      by rw [crossInEffect_steady]; exact (limitCross_spec cross hfb).1,
      fun j h h' => by rw [crossInEffect_return r cross fb h h']; exact (limitCross_spec _ hfb).1,
      by rw [crossInEffect_steady]; exact (limitCross_spec cross hfb).2⟩⟩

end Sys2Proof.Signal
end

section
/-! Events that change the record in one slot: ramps, returns and envelopes that end (O29). The rules for one parameter
changed come first. -/
namespace Sys2Proof.Signal
open Sys2Proof.Machine

/-! ## One slot changed -/

/-- A record changed in an occupied slot changes that slot alone. -/
theorem slotBecomes_modInst {s : State} {slot : Nat} {i : Inst} (h : s.inst slot = some i) (f : Inst → Inst) :
    SlotBecomes s (s.modInst slot f) slot (f i) := by
  refine ⟨by simp [inst_modInst, h], by simp [State.modInst, h, State.setInst], fun k hk => ?_⟩
  rw [inst_modInst, if_neg hk]

/-- A change that leaves the record as it is leaves the state as it is. -/
theorem modInst_of_eq_self {s : State} {slot : Nat} {i : Inst} (h : s.inst slot = some i) {f : Inst → Inst}
    (hf : f i = i) : s.modInst slot f = s := by
  rw [State.modInst, h]
  simp only [hf, setInst_same h]

/-! ## One parameter changed -/

/-- The record of a parameter is one of the list, with its number. -/
theorem mem_of_param {i : Inst} {n : Nat} {p : Param} (h : i.param n = some p) : p ∈ i.params ∧ p.num = n :=
  ⟨List.mem_of_find?_eq_some h, by simpa using List.find?_some h⟩

/-- What a change of parameter `n` that keeps its number leaves at each. -/
theorem param_modParam (i : Inst) (n k : Nat) {f : Param → Param} (hf : ∀ p, (f p).num = p.num) :
    (i.modParam n f).param k = if k = n then (i.param k).map f else i.param k := by
  have hnum : ∀ p : Param, (if p.num = n then f p else p).num = p.num := fun p => by split <;> simp [hf]
  simp only [Inst.param, Inst.modParam, List.find?_map, Function.comp_def, hnum]
  cases hp : i.params.find? fun p => decide (p.num = k) with
  | none => simp
  | some p =>
    have hk : p.num = k := by simpa using List.find?_some hp
    by_cases hn : k = n <;> simp [hk, hn]

theorem onlyParam_modParam (i : Inst) (n : Nat) {f : Param → Param} (hf : ∀ p, (f p).num = p.num) :
    OnlyParam i (i.modParam n f) n :=
  ⟨rfl, fun k hk => by rw [param_modParam i n k hf, if_neg hk]⟩

/-- With every number once in the list, a change that keeps the one record of the number changes nothing. -/
theorem modParam_of_eq_self {i : Inst} {n : Nat} {p : Param} {f : Param → Param} (h : i.param n = some p)
    (hn : (i.params.map Param.num).Nodup) (hf : f p = p) : i.modParam n f = i := by
  have key : ∀ q ∈ i.params, (if q.num = n then f q else q) = q := fun q hq => by
    split
    · rename_i hqn
      obtain ⟨hp, hpn⟩ := mem_of_param h
      rw [List.inj_on_of_nodup_map hn hq hp (hqn.trans hpn.symm), hf]
    · rfl
  simp only [Inst.modParam, List.map_congr_left key, List.map_id']

/-! ## The ends -/

@[simp] theorem num_endRamp (p : Param) : p.endRamp.num = p.num := by
  unfold Param.endRamp
  (repeat' split) <;> rfl

theorem endRamp_of_ran {p : Param} {g : Ramp} (h : p.ramp = some g) (hg : g.len < g.pos) :
    p.endRamp = { p with value := p.target, ramp := none } := by
  simp [Param.endRamp, h, hg]

theorem endRamp_of_runs {p : Param} {g : Ramp} (h : p.ramp = some g) (hg : g.pos ≤ g.len) : p.endRamp = p := by
  simp [Param.endRamp, h, Nat.not_lt.mpr hg]

theorem path_endRamp_of_ran {x : Path} {g : GainRamp} (h : x.ramp = some g) (hd : x.departing = false)
    (hg : g.len < g.pos) : x.endRamp = { x with ramp := none } := by
  simp [Path.endRamp, Path.ran, h, hd, hg]

theorem exec_rampEnd {s : State} (h : s.running = true) (slot : Nat) (which : RampRef) :
    exec (.rampEnd slot which) s = .next (s.modInst slot fun i => endRamp i which) :=
  congrArg Host.Outcome.next (whileRunning_on h _)

theorem exec_returnRampEnd {s : State} (h : s.running = true) (slot : Nat) :
    exec (.returnRampEnd slot) s = .next (s.modInst slot (endReturn s.rate)) :=
  congrArg Host.Outcome.next (whileRunning_on h _)

theorem exec_poisonFallEnd {s : State} (h : s.running = true) (slot : Nat) :
    exec (.poisonFallEnd slot) s = .next (s.modInst slot endPoisonFall) :=
  congrArg Host.Outcome.next (whileRunning_on h _)

theorem exec_poisonRiseEnd {s : State} (h : s.running = true) (slot : Nat) :
    exec (.poisonRiseEnd slot) s = .next (s.modInst slot endPoisonRise) :=
  congrArg Host.Outcome.next (whileRunning_on h _)

section
variable {s : State} {slot : Nat} {i : Inst} {c : Instr} {f : Inst → Inst}

/-- An event of one slot that changes its record to `j`. -/
theorem event_becomes (hc : exec c s = .next (s.modInst slot f)) (h : s.inst slot = some i) {j : Inst} (hj : f i = j) :
    ∃ t, exec c s = .next t ∧ SlotBecomes s t slot j :=
  ⟨_, hc, hj ▸ slotBecomes_modInst h f⟩

/-- An event of one slot that is not due. -/
theorem event_unchanged (hc : exec c s = .next (s.modInst slot f)) (h : s.inst slot = some i) (hj : f i = i) :
    exec c s = .next s := by
  rw [hc, modInst_of_eq_self h hj]

end

/-- Settles O29: each end is one change of the slot's record, which is that of the rule once the last frame has run and
no change before. -/
theorem rampsReturnsAndEnvelopesEnd : Obligations.RampsReturnsAndEnvelopesEnd := by
  intro s slot i hr hi
  refine ⟨fun n p g hp hg => ⟨fun h => ?_, fun h hn => ?_⟩, fun pos x g hx hg hd h => ?_, fun side pos x g hx hg hd h => ?_,
    fun h => ?_, fun h => ?_, fun h h' => ?_, fun h => ?_, fun h h' => ?_, fun h => ?_⟩
  · obtain ⟨t, ht, hs⟩ := event_becomes (exec_rampEnd hr slot (.param n)) hi rfl
    refine ⟨t, _, ht, hs, onlyParam_modParam i n num_endRamp, rfl, ?_⟩
    rw [endRamp, param_modParam i n n num_endRamp, if_pos rfl, hp, Option.map_some, endRamp_of_ran hg h]
  · exact event_unchanged (exec_rampEnd hr slot (.param n)) hi (modParam_of_eq_self hp hn (endRamp_of_runs hg h))
  · exact event_becomes (exec_rampEnd hr slot (.send pos)) hi
      (by simp [endRamp, endSendRamp, hx, path_endRamp_of_ran hg hd h])
  · exact event_becomes (exec_rampEnd hr slot (.route side pos)) hi
      (by simp [endRamp, endRouteRamp, hx, path_endRamp_of_ran hg hd h])
  · exact event_becomes (exec_returnRampEnd hr slot) hi (by simp [endReturn, h])
  · exact event_unchanged (exec_returnRampEnd hr slot) hi (by simp [endReturn, Nat.not_lt.mpr h])
  · exact event_becomes (exec_poisonFallEnd hr slot) hi (by simp [endPoisonFall, h, h'])
  · exact event_unchanged (exec_poisonFallEnd hr slot) hi (if_neg fun ⟨a, b⟩ => h.elim (· a) (by omega))
  · exact event_becomes (exec_poisonRiseEnd hr slot) hi (by simp [endPoisonRise, h, h'])
  · exact event_unchanged (exec_poisonRiseEnd hr slot) hi (if_neg fun ⟨a, b⟩ => h.elim (· a) (by omega))

end Sys2Proof.Signal
end

section
/-! The five kinds (chapter 3): what each computes in a frame, from the definitions of their sums, HELD and not (O12). -/
namespace Sys2Proof.Signal
open Sys2Proof.Machine

/-! ## Counts of clamps and the rest in effect -/

@[simp] theorem clampsOf_nil : clampsOf [] = 0 := rfl

@[simp] theorem clampsOf_cons (a : Int) (l : List Int) : clampsOf (a :: l) = takeClamps 0 a + clampsOf l := by
  simp [clampsOf]

@[simp] theorem clampsOf_append (l m : List Int) : clampsOf (l ++ m) = clampsOf l + clampsOf m := by
  simp [clampsOf]

theorem isHeld_of_held {i : Inst} (h : i.state = .held) : isHeld i = true := by simp [isHeld, h]

theorem isHeld_of_not_held {i : Inst} (h : i.state ≠ .held) : isHeld i = false := by simp [isHeld, h]

/-- A HELD effect bypasses the damping (R36). -/
theorem dampNow_held (r : Rate) {i : Inst} (h : i.state = .held) : dampNow r i = 32768 := by
  rw [dampNow, isHeld_of_held h, dampInEffect_held]

theorem dampNow_running (r : Rate) {i : Inst} (h : i.state ≠ .held) :
    dampNow r i = dampInEffect r false i.ret (i.value (dampParam i.choice.kind)) := by
  rw [dampNow, isHeld_of_not_held h]

/-- At its first point a rising table gives that point's coefficient. -/
theorem dampBetween_first (r : Rate) {d a b : Int} {l : List (Int × Int × Int)} (h : ((d, a, b) :: l).IsChain DampBelow) :
    dampBetween r d ((d, a, b) :: l) = r.pick a b := by
  cases l with
  | nil => rfl
  | cons q l =>
    have hd : d < q.1 := (List.isChain_cons_cons.mp h).1.1
    simp [dampBetween, hd.le]

theorem first_le_of_getElem? {p : Int × Int × Int} :
    ∀ (l : List (Int × Int × Int)) (m : Nat) {a : Int × Int × Int}, (a :: l).IsChain DampBelow →
      (a :: l)[m]? = some p → a.1 ≤ p.1
  | _, 0, _, _, h => by simp_all
  | [], m + 1, _, _, h => by simp at h
  | b :: l, m + 1, a, hl, h => by
    obtain ⟨⟨hab, _⟩, ht⟩ := List.isChain_cons_cons.mp hl
    exact hab.le.trans (first_le_of_getElem? l m ht (by simpa using h))

/-- Between two neighbouring points of a rising table the coefficient is that of the straight line between them; where
two lines meet they agree (R52). -/
theorem dampBetween_segment (r : Rate) {x d0 a0 b0 d1 a1 b1 : Int} (h0 : d0 ≤ x) (h1 : x ≤ d1) :
    ∀ (l : List (Int × Int × Int)) (m : Nat), l.IsChain DampBelow → l[m]? = some (d0, a0, b0) →
      l[m + 1]? = some (d1, a1, b1) → dampBetween r x l =
        r.pick a0 b0 + Int.tdiv ((r.pick a1 b1 - r.pick a0 b0) * (x - d0)) (d1 - d0)
  | [], _, _, hp, _ => by simp at hp
  | [_], m, _, _, hq => by simp at hq
  | (_, _, _) :: (_, _, _) :: l, 0, _, hp, hq => by
    simp only [List.getElem?_cons_zero, List.getElem?_cons_succ, Option.some.injEq, Prod.mk.injEq] at hp hq
    obtain ⟨rfl, rfl, rfl⟩ := hp
    obtain ⟨rfl, rfl, rfl⟩ := hq
    simp [dampBetween, h1]
  | (c0, _, _) :: (c1, e1, f1) :: l, m + 1, hl, hp, hq => by
    obtain ⟨⟨hc, _⟩, ht⟩ := List.isChain_cons_cons.mp hl
    rw [List.getElem?_cons_succ] at hp hq
    have hle : c1 ≤ d0 := first_le_of_getElem? l m ht hp
    rw [← dampBetween_segment r h0 h1 _ m ht hp hq, dampBetween]
    split
    · obtain rfl : x = c1 := by omega
      rw [dampBetween_first r ht]
      simp only [Int.mul_tdiv_cancel _ (show x - c0 ≠ 0 by simp only at hc; omega)]
      omega
    · rfl

theorem dampPoints_eq (r : Rate) (n : Nat) :
    dampPoints r n = (dampTable[n]?).map fun p => (p.1, r.pick p.2.1 p.2.2) := by
  rw [← List.getElem?_map]
  cases r <;> rfl

/-- DAMP between two points of its table gives the coefficient on the straight line between them (R52). -/
theorem dampCoefficient_of_points {r : Rate} {m : Nat} {damp k0 k1 d0 d1 : Int} (h0 : dampPoints r m = some (d0, k0))
    (h1 : dampPoints r (m + 1) = some (d1, k1)) (hl : d0 ≤ damp) (hu : damp ≤ d1) :
    dampCoefficient r damp = k0 + Int.tdiv ((k1 - k0) * (damp - d0)) (d1 - d0) := by
  simp only [dampPoints_eq, Option.map_eq_some_iff, Prod.mk.injEq] at h0 h1
  obtain ⟨⟨_, a0, b0⟩, hp, rfl, rfl⟩ := h0
  obtain ⟨⟨_, a1, b1⟩, hq, rfl, rfl⟩ := h1
  have top : ∀ q ∈ dampTable, q.1 < 200 := by decide
  have hlast : damp < 200 := hu.trans_lt (top _ (List.mem_of_getElem? hq))
  rw [dampCoefficient, if_neg (not_le.mpr hlast)]
  exact dampBetween_segment r hl hu dampTable m dampTable_rises hp hq

/-- The damping coefficient in effect by the points of DAMP around it, with the bypass of HELD and its return ramp. -/
theorem dampNow_of_coefficient (r : Rate) (i : Inst) {k : Int}
    (h : dampCoefficient r (i.value (dampParam i.choice.kind)) = k) :
    (i.state = .held → dampNow r i = 32768) ∧ (i.state ≠ .held → i.ret = 0 → dampNow r i = k) ∧
    (i.state ≠ .held → 1 ≤ i.ret → i.ret ≤ r.pick 480 960 →
      dampNow r i = 32768 + Int.tdiv ((k - 32768) * i.ret) (r.pick 480 960 : Nat)) :=
  ⟨dampNow_held r, fun hs hr => by rw [dampNow_running r hs, hr, dampInEffect_steady, h],
    fun hs hr hr' => by rw [dampNow_running r hs, dampInEffect_return r _ hr hr', h]⟩

/-! ## The kinds by their sums -/

theorem kindFrame_delay {i : Inst} (h : i.choice.kind = .delay) (r : Rate) (x : Int) (reads : List Int) :
    kindFrame r i x reads = delayFrame r i x reads := by
  simp [kindFrame, h]

theorem kindFrame_pingpong {i : Inst} (h : i.choice.kind = .pingpong) (r : Rate) (x : Int) (reads : List Int) :
    kindFrame r i x reads = pingpongFrame r i x reads := by
  simp [kindFrame, h]

theorem kindFrame_multitap {i : Inst} (h : i.choice.kind = .multitap) (r : Rate) (x : Int) (reads : List Int) :
    kindFrame r i x reads = multitapFrame r i x reads := by
  simp [kindFrame, h]

theorem kindFrame_chorus {i : Inst} (h : i.choice.kind = .chorus) (r : Rate) (x : Int) (reads : List Int) :
    kindFrame r i x reads = chorusFrame r i x reads := by
  simp [kindFrame, h]

theorem kindFrame_reverb {i : Inst} (h : i.choice.kind = .reverb) (r : Rate) (x : Int) (reads : List Int) :
    kindFrame r i x reads = reverbFrame r i x reads := by
  simp [kindFrame, h]

/-- Every kind writes takes, so samples (R30). -/
theorem kindFrame_writes_range (r : Rate) (i : Inst) (x : Int) (reads : List Int) :
    ∀ v, v ∈ (kindFrame r i x reads).writes → -8388608 ≤ v ∧ v ≤ 8388607 := by
  have htake : ∀ v e A, v = take e A → -8388608 ≤ v ∧ v ≤ 8388607 := fun v e A h => h ▸ take_mem_range e A
  have hall : ∀ v ∈ (kindFrame r i x reads).writes, ∃ A, v = take 0 A := by
    intro v hv
    cases hk : i.choice.kind with
    | delay =>
      rw [kindFrame_delay hk] at hv
      exact ⟨_, List.mem_singleton.mp hv⟩
    | pingpong =>
      rw [kindFrame_pingpong hk] at hv
      simp only [pingpongFrame, List.mem_cons, List.not_mem_nil, or_false] at hv
      rcases hv with h | h <;> exact ⟨_, h⟩
    | multitap =>
      rw [kindFrame_multitap hk] at hv
      exact ⟨_, List.mem_singleton.mp hv⟩
    | chorus =>
      rw [kindFrame_chorus hk] at hv
      obtain ⟨n, _, h⟩ := List.mem_map.mp hv
      exact ⟨_, h.symm⟩
    | reverb =>
      rw [kindFrame_reverb hk] at hv
      simp only [reverbFrame, allpass, List.mem_cons, List.not_mem_nil, or_false] at hv
      rcases hv with h | h | h | h | h | h | h | h | h <;> exact ⟨_, h⟩
  intro v hv
  obtain ⟨A, hA⟩ := hall v hv
  exact htake v 0 A hA

/-- A HELD effect takes no input (R36). -/
theorem kindFrame_input_held {i : Inst} (h : i.state = .held) (r : Rate) (x y : Int) (reads : List Int) :
    kindFrame r i y reads = kindFrame r i x reads := by
  have hh := isHeld_of_held h
  cases hk : i.choice.kind with
  | delay => simp [kindFrame_delay hk, delayFrame, hh]
  | pingpong => simp [kindFrame_pingpong hk, pingpongFrame, hh]
  | multitap => simp [kindFrame_multitap hk, multitapFrame, hh]
  | chorus => simp [kindFrame_chorus hk, chorusFrame, hh]
  | reverb => simp [kindFrame_reverb hk, reverbFrame, hh]

/-! ## DELAY and PINGPONG (R58, R60, R61, R63) -/

theorem delay_held {i : Inst} (h : i.state = .held) (hk : i.choice.kind = .delay) (r : Rate) (x v : Int) :
    kindFrame r i x [v] =
      { writes := [take 0 (32767 * v)], damps := [v], left := v, right := v, clamps := clampsOf [32767 * v] } := by
  simp [kindFrame_delay hk, delayFrame, isHeld_of_held h, dampNow_held r h]

theorem delay_running {i : Inst} (h : i.state ≠ .held) (hk : i.choice.kind = .delay) (r : Rate) (x v : Int) {fb y : Int}
    (hfb : fb = feedbackInEffect r false i.ret (i.value 3)) (hy : y = dampStep (dampOf i 0) v (dampNow r i)) :
    kindFrame r i x [v] = { writes := [take 0 (x * 32768 + fb * y)], damps := [y], left := y, right := y,
                            clamps := clampsOf [x * 32768 + fb * y] } := by
  simp [kindFrame_delay hk, delayFrame, isHeld_of_not_held h, hfb, hy]

theorem pingpong_held {i : Inst} (h : i.state = .held) (hk : i.choice.kind = .pingpong) (r : Rate) (x v w : Int) :
    kindFrame r i x [v, w] =
      { writes := [take 0 (32767 * v), take 0 (32767 * w)], damps := [v, w], left := v, right := w,
        clamps := clampsOf [32767 * v, 32767 * w] } := by
  simp [kindFrame_pingpong hk, pingpongFrame, isHeld_of_held h, dampNow_held r h]

theorem pingpong_running {i : Inst} (h : i.state ≠ .held) (hk : i.choice.kind = .pingpong) (r : Rate) (x v w : Int)
    {fb y0 y1 cross : Int} (hfb : fb = feedbackInEffect r false i.ret (i.value 4))
    (h0 : y0 = dampStep (dampOf i 0) v (dampNow r i)) (h1 : y1 = dampStep (dampOf i 1) w (dampNow r i))
    (hc : cross = crossInEffect r false i.ret (i.value 5) fb) :
    kindFrame r i x [v, w] =
      { writes := [take 0 (x * 32768 + fb * y0 + cross * y1), take 0 (fb * y1 + cross * y0)], damps := [y0, y1],
        left := y0, right := y1,
        clamps := clampsOf [x * 32768 + fb * y0 + cross * y1, fb * y1 + cross * y0] } := by
  simp [kindFrame_pingpong hk, pingpongFrame, isHeld_of_not_held h, ← h0, ← h1, ← hfb, ← hc]

/-! ## MULTITAP (R64, R66) -/

theorem multitap_held {i : Inst} (h : i.state = .held) (hk : i.choice.kind = .multitap) (r : Rate) (x : Int)
    (reads : List Int) {n : Nat} {y : Int} (hn : (n : Int) = i.value 2) (hy : y = reads.getD (n - 1) 0) :
    (kindFrame r i x reads).writes = [take 0 (32767 * y)] ∧ (kindFrame r i x reads).damps = [y] ∧
    (kindFrame r i x reads).clamps = clampsOf [32767 * y, tapSum i n reads (-1), tapSum i n reads 1] := by
  simp [kindFrame_multitap hk, multitapFrame, isHeld_of_held h, dampNow_held r h, ← hn, hy, tapSum, tapCoefs,
    sub_eq_add_neg, add_assoc]

theorem multitap_running {i : Inst} (h : i.state ≠ .held) (hk : i.choice.kind = .multitap) (r : Rate) (x : Int)
    (reads : List Int) {n : Nat} {fb y : Int} (hn : (n : Int) = i.value 2)
    (hfb : fb = feedbackInEffect r false i.ret (i.value 3))
    (hy : y = dampStep (dampOf i 0) (reads.getD (n - 1) 0) (dampNow r i)) :
    kindFrame r i x reads =
      { writes := [take 0 (x * 32768 + fb * y)], damps := [y],
        left := take 0 (tapSum i n reads (-1)), right := take 0 (tapSum i n reads 1),
        clamps := clampsOf [x * 32768 + fb * y, tapSum i n reads (-1), tapSum i n reads 1] } := by
  simp [kindFrame_multitap hk, multitapFrame, isHeld_of_not_held h, ← hn, ← hfb, hy, tapSum, tapCoefs,
    sub_eq_add_neg, add_assoc]

/-! ## CHORUS (R67, R70) -/

theorem voiceSums_eq {n : Int} {v : Nat → Int} {left right : Int} (h : VoiceSums n v left right) :
    voiceSums n v = (left, right) := by
  rcases h with ⟨rfl, rfl, rfl⟩ | ⟨rfl, rfl, rfl⟩ | ⟨rfl, rfl, rfl⟩ | ⟨rfl, rfl, rfl⟩ <;> simp [voiceSums, add_mul]

/-- The accumulator of each line of a CHORUS: the input and, in the FLANGE mode, the feedback of its read. -/
theorem chorus_writes {i : Inst} (hk : i.choice.kind = .chorus) (r : Rate) (x : Int) (reads : List Int) :
    (kindFrame r i x reads).writes = (List.range i.choice.voices).map fun k =>
      take 0 ((if isHeld i then 0 else x) * 32768 +
        if i.choice.flange then feedbackInEffect r (isHeld i) i.ret (i.value 8) * reads.getD k 0 else 0) := by
  simp only [kindFrame_chorus hk, chorusFrame, ite_mul, zero_mul]

theorem chorus_outputs {i : Inst} (hk : i.choice.kind = .chorus) (r : Rate) (x : Int) (reads : List Int) {left right : Int}
    (hs : VoiceSums (i.value 2) (fun k => reads.getD k 0) left right) :
    (kindFrame r i x reads).left = take 0 left ∧ (kindFrame r i x reads).right = take 0 right ∧
    (kindFrame r i x reads).clamps = clampsOf ([left, right] ++ (List.range i.choice.voices).map fun k =>
      (if isHeld i then 0 else x) * 32768 +
        if i.choice.flange then feedbackInEffect r (isHeld i) i.ret (i.value 8) * reads.getD k 0 else 0) := by
  simp only [kindFrame_chorus hk, chorusFrame, voiceSums_eq hs, ite_mul, zero_mul, clampsOf_append, clampsOf_cons,
    clampsOf_nil, true_and]
  simp only [clampsOf, List.map_map, Function.comp_def]
  omega

/-- The outputs of a MULTITAP and a CHORUS are formed in HELD as in RUNNING (R66, R70). -/
theorem tapped_outputs_held {i : Inst} (hk : i.choice.kind = .multitap ∨ i.choice.kind = .chorus) (r : Rate) (x : Int)
    (reads : List Int) :
    (kindFrame r i x reads).left = (kindFrame r { i with state := .running } x reads).left ∧
    (kindFrame r i x reads).right = (kindFrame r { i with state := .running } x reads).right := by
  rcases hk with h | h
  · rw [kindFrame_multitap h, kindFrame_multitap (i := { i with state := .running }) h]
    exact ⟨rfl, rfl⟩
  · rw [kindFrame_chorus h, kindFrame_chorus (i := { i with state := .running }) h]
    exact ⟨rfl, rfl⟩

/-! ## REVERB (R38, R55, R57) -/

/-- The half, rounded down, that R38 takes from the sum of the network. -/
theorem half_bounds (c : Int) : 2 * (c / 2) ≤ c ∧ c < 2 * (c / 2) + 2 := by omega

theorem reverb_held {i : Inst} (h : i.state = .held) (hk : i.choice.kind = .reverb) (r : Rate)
    (x pre d1 d2 d3 d4 n1 n2 n3 n4 : Int) :
    ∃ (h g : Int) (m : Nat), g = diffusionGain (i.value 6).toNat ∧
      2 * h ≤ n1 + n2 + n3 + n4 ∧ n1 + n2 + n3 + n4 < 2 * h + 2 ∧
      m = clampsOf ([d1, d2, d3, d4].map (fun d => -(g * d)) ++
        [d1, d2, d3, d4].map (fun d => d * 32768 + g * take 0 (-(g * d))) ++
        [n1, n2, n3, n4].map fun n => 32767 * (n - h)) ∧
      kindFrame r i x [pre, d1, d2, d3, d4, n1, n2, n3, n4] =
        { writes := [0, take 0 (-(g * d1)), take 0 (-(g * d2)), take 0 (-(g * d3)), take 0 (-(g * d4)),
            take 0 (32767 * (n1 - h)), take 0 (32767 * (n2 - h)), take 0 (32767 * (n3 - h)),
            take 0 (32767 * (n4 - h))],
          damps := [dampOf i 0, dampOf i 1, dampOf i 2, dampOf i 3, dampOf i 4, n1, n2, n3, n4],
          left := n1 + n3, right := n2 + n4, clamps := m } := by
  refine ⟨(n1 + n2 + n3 + n4) / 2, _, _, rfl, (half_bounds _).1, (half_bounds _).2, rfl, ?_⟩
  simp only [kindFrame_reverb hk, reverbFrame, allpass, isHeld_of_held h, dampNow_held r h, if_true, List.getD_cons_zero,
    List.getD_cons_succ, zero_mul, zero_sub, zero_add, take_zero_zero, dampStep_bypass, feedbackInEffect_held,
    List.map_cons, List.map_nil, clampsOf_append, clampsOf_cons, clampsOf_nil, KindOut.mk.injEq, true_and]
  omega

theorem reverb_running {i : Inst} (h : i.state ≠ .held) (hk : i.choice.kind = .reverb) (r : Rate) {fb : Int → Int}
    {z : Nat → Int → Int} (hfb : ∀ p, fb p = feedbackInEffect r false i.ret p)
    (hz : ∀ k v, z k v = dampStep (dampOf i k) v (dampNow r i)) (x pre d1 d2 d3 d4 n1 n2 n3 n4 : Int) :
    ∃ w1 w2 w3 w4 u2 u3 u4 u5 h c : Int, ∃ g : Int, ∃ m : Nat, g = diffusionGain (i.value 6).toNat ∧
      w1 = take 0 (pre * 32768 - g * d1) ∧ u2 = take 0 (d1 * 32768 + g * w1) ∧
      w2 = take 0 (u2 * 32768 - g * d2) ∧ u3 = take 0 (d2 * 32768 + g * w2) ∧
      w3 = take 0 (u3 * 32768 - g * d3) ∧ u4 = take 0 (d3 * 32768 + g * w3) ∧
      w4 = take 0 (u4 * 32768 - g * d4) ∧ u5 = take 0 (d4 * 32768 + g * w4) ∧
      c = z 5 n1 + z 6 n2 + z 7 n3 + z 8 n4 ∧ 2 * h ≤ c ∧ c < 2 * h + 2 ∧
      m = clampsOf [pre * 32768 - g * d1, d1 * 32768 + g * w1, u2 * 32768 - g * d2, d2 * 32768 + g * w2,
        u3 * 32768 - g * d3, d3 * 32768 + g * w3, u4 * 32768 - g * d4, d4 * 32768 + g * w4,
        u5 * 32768 + fb (i.decay.gains.getD 0 0) * (z 5 n1 - h),
        u5 * 32768 + fb (i.decay.gains.getD 1 0) * (z 6 n2 - h),
        u5 * 32768 + fb (i.decay.gains.getD 2 0) * (z 7 n3 - h),
        u5 * 32768 + fb (i.decay.gains.getD 3 0) * (z 8 n4 - h)] ∧
      kindFrame r i x [pre, d1, d2, d3, d4, n1, n2, n3, n4] =
        { writes := [take 0 (x * 32768), w1, w2, w3, w4,
            take 0 (u5 * 32768 + fb (i.decay.gains.getD 0 0) * (z 5 n1 - h)),
            take 0 (u5 * 32768 + fb (i.decay.gains.getD 1 0) * (z 6 n2 - h)),
            take 0 (u5 * 32768 + fb (i.decay.gains.getD 2 0) * (z 7 n3 - h)),
            take 0 (u5 * 32768 + fb (i.decay.gains.getD 3 0) * (z 8 n4 - h))],
          damps := [dampOf i 0, dampOf i 1, dampOf i 2, dampOf i 3, dampOf i 4, z 5 n1, z 6 n2, z 7 n3, z 8 n4],
          left := z 5 n1 + z 7 n3, right := z 6 n2 + z 8 n4, clamps := m } := by
  refine ⟨_, _, _, _, _, _, _, _, _, _, _, _, rfl, rfl, rfl, rfl, rfl, rfl, rfl, rfl, rfl, rfl, (half_bounds _).1,
    (half_bounds _).2, rfl, ?_⟩
  simp only [kindFrame_reverb hk, reverbFrame, allpass, isHeld_of_not_held h, Bool.false_eq_true, if_false,
    List.getD_cons_zero, List.getD_cons_succ, hfb, hz, clampsOf_cons, clampsOf_nil, KindOut.mk.injEq, true_and]
  simp only [Nat.zero_add, Nat.reduceAdd, add_zero]
  omega

/-! ## The output chain (R16, R31, R44, R82) -/

theorem outputInst_saturation (r : Rate) (i : Inst) (input : Int) (reads : List Int) :
    (outputInst r i input reads false).1.saturation = min 65535 (i.saturation + (takeClamps 0 input +
      (kindFrame r i (take 0 input) reads).clamps +
      takeClamps (outGain i).e ((kindFrame r i (take 0 input) reads).left * (outGain i).m) +
      takeClamps (outGain i).e ((kindFrame r i (take 0 input) reads).right * (outGain i).m))) := rfl

/-- The outputs of a clean frame under a CLEAR envelope: the take at OUT_GAIN, under the dip and then the fade. -/
theorem outputInst_outputs (r : Rate) {i : Inst} (input : Int) (reads : List Int) (h : i.env.phase = .clear) :
    (outputInst r i input reads false).1.outL = fadeScale r i (dipScale r i
      (take (outGain i).e ((kindFrame r i (take 0 input) reads).left * (outGain i).m))) ∧
    (outputInst r i input reads false).1.outR = fadeScale r i (dipScale r i
      (take (outGain i).e ((kindFrame r i (take 0 input) reads).right * (outGain i).m))) := by
  simp [outputInst, stepEnv, envOutput, h]

end Sys2Proof.Signal
end

section
/-! The decay gains of a REVERB (R39): how far the fixed-point working of `decayGain` lies from the exact power of ten
(O12, log entry 17). The exact value is `exp (-a)` with `a = 30 L log 10 / (DECAY hz)`. The working takes three steps, each
with its error: the binary exponent, the series of the exponential for its fractional part, and the last rounding. -/
namespace Sys2Proof.Signal
open Sys2Proof.Machine

/-! ## Whole quotients as real numbers -/

theorem natDiv_le (a b : Nat) : ((a / b : Nat) : ℝ) ≤ a / b := Nat.cast_div_le

theorem lt_natDiv_add_one (a b : Nat) : (a / b : ℝ) < ((a / b : Nat) : ℝ) + 1 := by
  rw [← Nat.floor_div_eq_div (K := ℝ)]
  exact Nat.lt_floor_add_one _

theorem abs_natDiv_sub_le (a b : Nat) : |((a / b : Nat) : ℝ) - a / b| ≤ 1 := by
  rw [abs_le]
  constructor <;> linarith [natDiv_le a b, lt_natDiv_add_one a b]

/-- A quotient rounded to nearest lies within a half of the exact one. -/
theorem abs_roundDiv_sub_le (n : Nat) {d : Nat} (hd : 0 < d) : |((roundDiv n d : Nat) : ℝ) - n / d| ≤ 1 / 2 := by
  have hd' : (0 : ℝ) < d := by exact_mod_cast hd
  have heq : (((2 * n + d : Nat) : ℝ) / ((2 * d : Nat) : ℝ)) = n / d + 1 / 2 := by
    push_cast
    field_simp
  have low := natDiv_le (2 * n + d) (2 * d)
  have high := lt_natDiv_add_one (2 * n + d) (2 * d)
  rw [heq] at low high
  unfold roundDiv
  rw [abs_le]
  constructor <;> linarith

/-! ## The series of the exponential -/

/-- The first `n + 1` terms of the exponential series of `-t`, from its `k`-th on and divided by that one, in the nested
form that `expNeg` works out. -/
noncomputable def expTail (t : ℝ) : Nat → Nat → ℝ
  | _, 0 => 1
  | k, n + 1 => 1 - t / (k + 1) * expTail t (k + 1) n

/-- The nested sum of `expNeg` from its `k`-th term on. -/
def fixTail (z k n : Nat) : Nat := (List.range' k n).foldr (fun k acc => fixOne - z * acc / fixOne / (k + 1)) fixOne

theorem expNeg_eq (z : Nat) : expNeg z = fixTail z 0 24 := by
  rw [expNeg, fixTail, List.range_eq_range']

theorem fixTail_succ (z k n : Nat) :
    fixTail z k (n + 1) = fixOne - z * fixTail z (k + 1) n / fixOne / (k + 1) := by
  simp [fixTail, List.range'_succ]

theorem fixTail_le (z : Nat) : ∀ k n, fixTail z k n ≤ fixOne
  | _, 0 => le_rfl
  | k, n + 1 => by
    rw [fixTail_succ]
    exact Nat.sub_le _ _

theorem expTail_eq_sum (t : ℝ) (n : Nat) : ∀ k, expTail t k n =
    ∑ j ∈ Finset.range (n + 1), (-t) ^ j * (k.factorial / (k + j).factorial) := by
  induction n with
  | zero =>
    intro k
    simp [expTail, Nat.factorial_ne_zero]
  | succ n ih =>
    intro k
    have hk : ((k : ℝ) + 1) ≠ 0 := by positivity
    have step : ∀ j : Nat, (-t) ^ (j + 1) * ((k.factorial : ℝ) / (k + (j + 1)).factorial) =
        -(t / (k + 1) * ((-t) ^ j * (((k + 1).factorial : ℝ) / (k + 1 + j).factorial))) := fun j => by
      rw [show k + (j + 1) = k + 1 + j by omega, Nat.factorial_succ k]
      push_cast
      field_simp
      ring
    have hfirst : (-t) ^ 0 * ((k.factorial : ℝ) / (k + 0).factorial) = 1 := by
      simp [Nat.factorial_ne_zero]
    rw [expTail, ih (k + 1), Finset.sum_range_succ' _ (n + 1), hfirst, Finset.sum_congr rfl fun j _ => step j,
      Finset.sum_neg_distrib, Finset.mul_sum]
    ring

theorem fixOne_pos : (0 : ℝ) < fixOne := by norm_num [fixOne]

/-- The nested sum in fixed point stays within 4 units of the last place: each step adds one for its rounding, and takes
at most three quarters of the error before it. -/
theorem abs_fixTail_sub_le {z : Nat} (hz : 4 * z ≤ 3 * fixOne) (n : Nat) :
    ∀ k, |(fixTail z k n : ℝ) - fixOne * expTail (z / fixOne) k n| ≤ 4 := by
  have hF := fixOne_pos
  have hz' : (z : ℝ) ≤ 3 / 4 * fixOne := by
    have : (4 * z : ℝ) ≤ 3 * fixOne := by exact_mod_cast hz
    linarith
  induction n with
  | zero =>
    intro k
    simp [fixTail, expTail]
  | succ n ih =>
    intro k
    have hk : (1 : ℝ) ≤ k + 1 := by linarith [Nat.cast_nonneg (α := ℝ) k]
    have hsmall : z * fixTail z (k + 1) n / (fixOne * (k + 1)) ≤ fixOne := by
      refine Nat.div_le_of_le_mul ?_
      have hz1 : z ≤ fixOne := by omega
      nlinarith [Nat.mul_le_mul hz1 (fixTail_le z (k + 1) n), Nat.zero_le (fixOne * k * fixOne)]
    rw [fixTail_succ, Nat.div_div_eq_div_mul, Nat.cast_sub hsmall, expTail]
    have hround := abs_natDiv_sub_le (z * fixTail z (k + 1) n) (fixOne * (k + 1))
    generalize ((z * fixTail z (k + 1) n / (fixOne * (k + 1)) : Nat) : ℝ) = w at hround
    have hshare : |(z : ℝ) / (fixOne * (k + 1))| ≤ 3 / 4 := by
      rw [abs_of_nonneg (by positivity), div_le_iff₀ (by positivity)]
      nlinarith
    calc |(fixOne : ℝ) - w - fixOne * (1 - z / fixOne / (k + 1) * expTail (z / fixOne) (k + 1) n)|
        = |(w - ((z * fixTail z (k + 1) n : Nat) : ℝ) / ((fixOne * (k + 1) : Nat) : ℝ)) +
            z / (fixOne * (k + 1)) * (fixTail z (k + 1) n - fixOne * expTail (z / fixOne) (k + 1) n)| := by
          rw [← abs_neg]
          congr 1
          push_cast
          field_simp
          ring
      _ ≤ 1 + 3 / 4 * 4 := by
          refine (abs_add_le _ _).trans (add_le_add hround ?_)
          rw [abs_mul]
          exact mul_le_mul hshare (ih (k + 1)) (abs_nonneg _) (by norm_num)
      _ = 4 := by norm_num

/-- `expNeg` is the exponential, to within a thousand million millionth. -/
theorem abs_expNeg_sub_le {z : Nat} (hz : 4 * z ≤ 3 * fixOne) :
    |(expNeg z : ℝ) / fixOne - Real.exp (-(z / fixOne))| ≤ 1 / 10 ^ 15 := by
  have hF := fixOne_pos
  have ht0 : (0 : ℝ) ≤ z / fixOne := by positivity
  have ht1 : (z : ℝ) / fixOne ≤ 1 := by
    rw [div_le_one hF]
    exact_mod_cast (by omega : z ≤ fixOne)
  have hseries : |Real.exp (-(z / fixOne)) - expTail (z / fixOne) 0 24| ≤ 1 / 10 ^ 20 := by
    have habs : |-((z : ℝ) / fixOne)| ≤ 1 := by rwa [abs_neg, abs_of_nonneg ht0]
    have hsum : expTail ((z : ℝ) / fixOne) 0 24 =
        ∑ m ∈ Finset.range 25, (-((z : ℝ) / fixOne)) ^ m / m.factorial := by
      simp [expTail_eq_sum, div_eq_mul_inv]
    rw [hsum]
    refine (Real.exp_bound habs (by norm_num)).trans ?_
    refine (mul_le_mul_of_nonneg_right (pow_le_one₀ (abs_nonneg _) habs) (by positivity)).trans ?_
    norm_num [Nat.factorial]
  have hfix := abs_fixTail_sub_le hz 24 0
  have hfix' : |(fixTail z 0 24 : ℝ) / fixOne - expTail (z / fixOne) 0 24| ≤ 4 / fixOne := by
    have hquot : (fixTail z 0 24 : ℝ) / fixOne - expTail (z / fixOne) 0 24 =
        (fixTail z 0 24 - fixOne * expTail (z / fixOne) 0 24) / fixOne := by field_simp
    rw [hquot, abs_div, abs_of_pos hF]
    gcongr
  have hsmall : (4 : ℝ) / fixOne ≤ 1 / 10 ^ 16 := by norm_num [fixOne]
  rw [expNeg_eq]
  rw [abs_le] at hseries hfix' ⊢
  norm_num at hseries hsmall ⊢
  constructor <;> linarith [hseries.1, hseries.2, hfix'.1, hfix'.2]

/-! ## The constants -/

theorem abs_ln2_sub_le : |(ln2 : ℝ) / fixOne - Real.log 2| ≤ 1 / 10 ^ 9 := by
  have h := Real.log_two_gt_d9
  have h' := Real.log_two_lt_d9
  rw [abs_le]
  norm_num [ln2, fixOne] at *
  constructor <;> linarith

/-- The logarithm of ten through that of two, from `10 ^ 3 = 2 ^ 10 (1 - 3 / 128)`. -/
theorem three_log_ten : 3 * Real.log 10 = 10 * Real.log 2 + Real.log (1 - 3 / 128) := by
  rw [← Nat.cast_ofNat (n := 3), ← Nat.cast_ofNat (n := 10) (R := ℝ), ← Real.log_pow, ← Real.log_pow,
    ← Real.log_mul (by norm_num) (by norm_num)]
  norm_num

theorem abs_log2Ten_sub_le : |(log2Ten : ℝ) / fixOne * Real.log 2 - Real.log 10| ≤ 1 / 10 ^ 9 := by
  have h := Real.log_two_gt_d9
  have h' := Real.log_two_lt_d9
  have hs := Real.abs_log_sub_add_sum_range_le (x := 3 / 128) (by norm_num [abs_of_pos]) 5
  have h10 := three_log_ten
  norm_num [Finset.sum_range_succ, abs_le] at hs
  rw [abs_le]
  norm_num [log2Ten, fixOne] at *
  constructor <;> linarith [hs.1, hs.2]

/-! ## The decay gain -/

/-- Two exponentials of numbers not below `c` differ by at most the share `1 / (1 + c)` of the numbers' difference. -/
theorem abs_exp_neg_sub_le {a b c : ℝ} (hc : 0 ≤ c) (ha : c ≤ a) (hb : c ≤ b) :
    |Real.exp (-a) - Real.exp (-b)| ≤ |a - b| / (1 + c) := by
  wlog h : a ≤ b generalizing a b
  · rw [abs_sub_comm, abs_sub_comm a]
    exact this hb ha (le_of_not_ge h)
  have hexp : Real.exp (-b) = Real.exp (-a) * Real.exp (a - b) := by
    rw [← Real.exp_add]
    congr 1
    ring
  have hone : 1 + (a - b) ≤ Real.exp (a - b) := by linarith [Real.add_one_le_exp (a - b)]
  have hle : Real.exp (a - b) ≤ 1 := Real.exp_le_one_iff.mpr (by linarith)
  have hinv : Real.exp (-a) ≤ 1 / (1 + c) := by
    rw [Real.exp_neg, ← one_div]
    exact one_div_le_one_div_of_le (by linarith) (by linarith [Real.add_one_le_exp a])
  have hpos := Real.exp_pos (-a)
  rw [hexp, ← mul_one_sub, abs_of_nonneg (mul_nonneg hpos.le (by linarith)), abs_of_nonpos (by linarith : a - b ≤ 0)]
  calc Real.exp (-a) * (1 - Real.exp (a - b)) ≤ 1 / (1 + c) * -(a - b) :=
        mul_le_mul hinv (by linarith) (by linarith) (by positivity)
    _ = -(a - b) / (1 + c) := by ring

/-- The binary exponent that `decayGain` works with, a whole number of `1 / fixOne`, stands for the exact exponent. -/
theorem abs_exp_binary_sub_le (m d : Nat) (hd : 0 < d) :
    |Real.exp (-(((m * log2Ten / d : Nat) : ℝ) / fixOne * Real.log 2)) - Real.exp (-((m : ℝ) / d * Real.log 10))| ≤
      3 / 10 ^ 9 := by
  have hF := fixOne_pos
  have hd' : (0 : ℝ) < d := by exact_mod_cast hd
  have hx : (0 : ℝ) ≤ (m : ℝ) / d := by positivity
  have hlog2 : 0 < Real.log 2 := Real.log_pos (by norm_num)
  have hlog2' : Real.log 2 ≤ 1 := by linarith [Real.log_two_lt_d9]
  have hlog10 : 2 ≤ Real.log 10 := by
    have := abs_le.mp abs_log2Ten_sub_le
    have h2 := Real.log_two_gt_d9
    norm_num [log2Ten, fixOne] at this
    linarith [this.1]
  have hunit : (1 : ℝ) / fixOne ≤ 1 / 10 ^ 10 := by norm_num [fixOne]
  have hdiff : |((m * log2Ten / d : Nat) : ℝ) / fixOne * Real.log 2 - (m : ℝ) / d * Real.log 10| ≤
      (1 + (m : ℝ) / d) / 10 ^ 9 := by
    have hround : |((m * log2Ten / d : Nat) : ℝ) / fixOne - ((m * log2Ten : Nat) : ℝ) / d / fixOne| ≤ 1 / 10 ^ 10 := by
      rw [← sub_div, abs_div, abs_of_pos hF]
      exact (div_le_div_of_nonneg_right (abs_natDiv_sub_le _ _) hF.le).trans hunit
    calc |((m * log2Ten / d : Nat) : ℝ) / fixOne * Real.log 2 - (m : ℝ) / d * Real.log 10|
        = |(((m * log2Ten / d : Nat) : ℝ) / fixOne - ((m * log2Ten : Nat) : ℝ) / d / fixOne) * Real.log 2 +
            (m : ℝ) / d * ((log2Ten : ℝ) / fixOne * Real.log 2 - Real.log 10)| := by
          congr 1
          push_cast
          ring
      _ ≤ 1 / 10 ^ 10 * 1 + (m : ℝ) / d * (1 / 10 ^ 9) := by
          refine (abs_add_le _ _).trans (add_le_add ?_ ?_)
          · rw [abs_mul, abs_of_pos hlog2]
            exact mul_le_mul hround hlog2' hlog2.le (by norm_num)
          · rw [abs_mul, abs_of_nonneg hx]
            exact mul_le_mul_of_nonneg_left abs_log2Ten_sub_le hx
      _ ≤ (1 + (m : ℝ) / d) / 10 ^ 9 := by
          norm_num
          linarith
  have hb0 : 0 ≤ ((m * log2Ten / d : Nat) : ℝ) / fixOne * Real.log 2 := by positivity
  generalize ((m * log2Ten / d : Nat) : ℝ) / fixOne * Real.log 2 = b at hdiff hb0
  generalize (m : ℝ) / d = x at hx hdiff
  have hb := abs_le.mp hdiff
  have hx10 : 2 * x ≤ x * Real.log 10 := by nlinarith
  norm_num at hb
  rcases le_or_gt 1 x with h1 | h1
  · refine (abs_exp_neg_sub_le (c := x) hx (by linarith [hb.1]) (by linarith)).trans ?_
    rw [div_le_iff₀ (by linarith)]
    norm_num at hdiff ⊢
    linarith
  · refine (abs_exp_neg_sub_le (c := 0) le_rfl hb0 (by linarith)).trans ?_
    norm_num at hdiff ⊢
    linarith

/-- The power of two split off by `decayGain`, and the series for the fractional part, give the exponential of the binary
exponent. -/
theorem abs_expNeg_div_sub_le (y : Nat) :
    |(expNeg (y % fixOne * ln2 / fixOne) : ℝ) / (2 ^ (y / fixOne) * fixOne) -
      Real.exp (-((y : ℝ) / fixOne * Real.log 2))| ≤ 2 / 10 ^ 9 := by
  have hF := fixOne_pos
  have hfrac : y % fixOne < fixOne := Nat.mod_lt _ (by decide)
  have hfrac' : ((y % fixOne : Nat) : ℝ) / fixOne ≤ 1 := by
    rw [div_le_one hF]
    exact_mod_cast hfrac.le
  have hfrac0 : (0 : ℝ) ≤ ((y % fixOne : Nat) : ℝ) / fixOne := by positivity
  have hlog2 : 0 < Real.log 2 := Real.log_pos (by norm_num)
  have hz : y % fixOne * ln2 / fixOne ≤ ln2 := by
    refine Nat.div_le_of_le_mul ?_
    exact Nat.mul_le_mul_right _ hfrac.le
  have hz4 : 4 * (y % fixOne * ln2 / fixOne) ≤ 3 * fixOne :=
    (Nat.mul_le_mul_left 4 hz).trans (by decide)
  have hwhole : Real.exp (-((y : ℝ) / fixOne * Real.log 2)) =
      Real.exp (-(((y % fixOne : Nat) : ℝ) / fixOne * Real.log 2)) / 2 ^ (y / fixOne) := by
    have hy : (y : ℝ) = fixOne * ((y / fixOne : Nat) : ℝ) + ((y % fixOne : Nat) : ℝ) := by
      exact_mod_cast (Nat.div_add_mod y fixOne).symm
    have hpow : (2 : ℝ) ^ (y / fixOne) = Real.exp (((y / fixOne : Nat) : ℝ) * Real.log 2) := by
      rw [mul_comm, Real.exp_mul, Real.exp_log (by norm_num), Real.rpow_natCast]
    rw [hpow, ← Real.exp_sub]
    congr 1
    rw [hy]
    field_simp
    ring
  have harg : |((y % fixOne * ln2 / fixOne : Nat) : ℝ) / fixOne - ((y % fixOne : Nat) : ℝ) / fixOne * Real.log 2| ≤
      11 / 10 ^ 10 := by
    have hunit : (1 : ℝ) / fixOne ≤ 1 / 10 ^ 10 := by norm_num [fixOne]
    calc |((y % fixOne * ln2 / fixOne : Nat) : ℝ) / fixOne - ((y % fixOne : Nat) : ℝ) / fixOne * Real.log 2|
        = |(((y % fixOne * ln2 / fixOne : Nat) : ℝ) - ((y % fixOne * ln2 : Nat) : ℝ) / fixOne) / fixOne +
            ((y % fixOne : Nat) : ℝ) / fixOne * ((ln2 : ℝ) / fixOne - Real.log 2)| := by
          congr 1
          push_cast
          ring
      _ ≤ 1 / 10 ^ 10 + 1 * (1 / 10 ^ 9) := by
          refine (abs_add_le _ _).trans (add_le_add ?_ ?_)
          · rw [abs_div, abs_of_pos hF]
            exact (div_le_div_of_nonneg_right (abs_natDiv_sub_le _ _) hF.le).trans hunit
          · rw [abs_mul, abs_of_nonneg hfrac0]
            exact mul_le_mul hfrac' abs_ln2_sub_le (abs_nonneg _) zero_le_one
      _ = 11 / 10 ^ 10 := by norm_num
  have hseries := abs_expNeg_sub_le hz4
  have hlip : |Real.exp (-((y % fixOne * ln2 / fixOne : Nat) / fixOne : ℝ)) -
      Real.exp (-(((y % fixOne : Nat) : ℝ) / fixOne * Real.log 2))| ≤ 11 / 10 ^ 10 := by
    refine (abs_exp_neg_sub_le (c := 0) le_rfl (by positivity) (by positivity)).trans ?_
    rwa [add_zero, div_one]
  have hfraction : |(expNeg (y % fixOne * ln2 / fixOne) : ℝ) / fixOne -
      Real.exp (-(((y % fixOne : Nat) : ℝ) / fixOne * Real.log 2))| ≤ 2 / 10 ^ 9 := by
    refine (abs_sub_le _ _ _).trans ((add_le_add hseries hlip).trans ?_)
    norm_num
  have hpow1 : (1 : ℝ) ≤ 2 ^ (y / fixOne) := one_le_pow₀ (by norm_num)
  rw [hwhole, mul_comm ((2 : ℝ) ^ _), ← div_div, ← sub_div, abs_div, abs_of_pos (by positivity : (0 : ℝ) < 2 ^ (y / fixOne))]
  exact (div_le_self (abs_nonneg _) hpow1).trans hfraction

/-- The decay gain of R39 to within a thousandth of the power of ten, rounded and held to 32,440. -/
theorem abs_decayGain_sub_le (r : Rate) (len : Nat) {decay : Nat} (hd : 1 ≤ decay) :
    |(decayGain r len decay : ℝ) - min 32440 (32768 * (10 : ℝ) ^ (-(30 * len : ℝ) / (decay * r.hz)))| ≤ 501 / 1000 := by
  have hpos : 0 < decay * r.hz := Nat.mul_pos hd (by cases r <;> decide)
  have hpower : (10 : ℝ) ^ (-(30 * len : ℝ) / (decay * r.hz)) =
      Real.exp (-(((30 * len : Nat) : ℝ) / (decay * r.hz : Nat) * Real.log 10)) := by
    rw [Real.rpow_def_of_pos (by norm_num)]
    congr 1
    push_cast
    ring
  have hexp := abs_exp_binary_sub_le (30 * len) (decay * r.hz) hpos
  rw [hpower, decayGain]
  generalize Real.exp (-(((30 * len : Nat) : ℝ) / (decay * r.hz : Nat) * Real.log 10)) = e at hexp
  generalize 30 * len * log2Ten / (decay * r.hz) = y at hexp
  have hbin := abs_expNeg_div_sub_le y
  have hround := abs_roundDiv_sub_le (32768 * expNeg (y % fixOne * ln2 / fixOne))
    (Nat.mul_pos (Nat.two_pow_pos (y / fixOne)) (by decide : 0 < fixOne))
  generalize roundDiv (32768 * expNeg (y % fixOne * ln2 / fixOne)) (2 ^ (y / fixOne) * fixOne) = g at hround
  push_cast at hround
  rw [mul_div_assoc] at hround
  generalize (expNeg (y % fixOne * ln2 / fixOne) : ℝ) / (2 ^ (y / fixOne) * fixOne) = v at hround hbin
  have hg : |(g : ℝ) - 32768 * e| ≤ 501 / 1000 := by
    rw [abs_le] at *
    norm_num at *
    constructor <;> linarith [hround.1, hround.2, hbin.1, hbin.2, hexp.1, hexp.2]
  push_cast
  rw [min_comm, min_comm (32440 : ℝ)]
  refine (abs_min_sub_min_le_max _ _ _ _).trans ?_
  simpa using hg

/-! ## The gains kept with an effect (R39, R54) -/

/-- The quotient rounded to nearest is the nearest number. -/
theorem nearest_roundDiv (n : Nat) {d : Nat} (hd : 0 < d) : Nearest (roundDiv n d) n d := by
  have h := Nat.div_add_mod (2 * n + d) (2 * d)
  have h' := Nat.mod_lt (2 * n + d) (show 0 < 2 * d by omega)
  unfold Nearest roundDiv
  rw [mul_add]
  omega

theorem decayGains_decayOf (r : Rate) {c : Choice} (hc : c.kind = .reverb) {decay size : Nat} (hd : 1 ≤ decay) :
    DecayGains r c.variant decay size (decayOf r c decay size).gains := by
  simp only [decayOf, hc, if_true, Int.toNat_natCast]
  refine ⟨?_, fun k len g hlen hg => ?_⟩
  · simp only [List.length_map, List.length_drop]
    rcases c.variant with _ | v
    · rfl
    · cases v <;> rfl
  · rw [List.getElem?_map, List.getElem?_drop, Nat.add_comm, hlen, Option.map_some, Option.some.injEq] at hg
    subst hg
    exact ⟨_, nearest_roundDiv _ (by decide), abs_decayGain_sub_le r _ hd⟩

/-- Once refreshed, the gains are those of the DECAY and the SIZE in effect (R39). -/
theorem refreshDecay_spec (r : Rate) {i : Inst} (hk : i.choice.kind = .reverb)
    (hi : i.decay = decayOf r i.choice i.decay.decay i.decay.size) :
    refreshDecay r i = { i with decay := decayOf r i.choice (i.value 2) (i.value 3) } := by
  unfold refreshDecay
  split
  · rfl
  · rename_i h
    simp only [hk, true_and, not_or, not_not] at h
    rw [← h.1, ← h.2, ← hi]

end Sys2Proof.Signal
end

section
/-! The sums of the output channels (R165) through a whole FRAME, and the statement on what the kinds compute (O12). -/
namespace Sys2Proof.Signal
open Sys2Proof.Machine

/-! ## What a channel sums up -/

theorem channelSum_append (l m : List (Nat × Int)) (chan : Nat) :
    State.channelSum (l ++ m) chan = State.channelSum l chan + State.channelSum m chan := by
  simp [State.channelSum]

theorem channelSum_flatMap {α : Type} (l : List α) (f : α → List (Nat × Int)) (chan : Nat) :
    State.channelSum (l.flatMap f) chan = (l.map fun a => State.channelSum (f a) chan).sum := by
  induction l with
  | nil => rfl
  | cons a l ih => rw [List.flatMap_cons, channelSum_append, ih, List.map_cons, List.sum_cons]

/-- The paths of one output carry to a channel what those of them to that channel carry. -/
theorem channelSum_paths (l : List Path) (out : Int) (chan : Nat) :
    State.channelSum (l.map fun x => (x.chan, out * x.gain)) chan =
      ((l.filter fun x => decide (x.chan = chan)).map fun x => out * x.gain).sum := by
  simp only [State.channelSum, List.filter_map, List.map_map, Function.comp_def]

theorem runs_iff (i : Inst) : runs i = true ↔ i.state ∈ [.running, .held, .draining, .fading] := by
  simp only [runs, decide_eq_true_eq]

/-- The sum of a channel is that over the slots of what each effect adds (R165). -/
theorem channelSum_carried (s : State) (chan : Nat) :
    State.channelSum s.carried' chan = ((List.range 32).map (s.adds chan)).sum := by
  rw [State.carried', channelSum_flatMap, allSlots]
  refine congrArg List.sum (List.map_congr_left fun k _ => ?_)
  simp only [State.adds]
  cases s.inst k with
  | none => rfl
  | some i =>
    simp only [runs_iff]
    split
    · rw [State.routed, channelSum_append, channelSum_paths, channelSum_paths]
    · rfl

/-! ## Counts of clips (R165) -/

theorem claim_lt {s : State} {chan : Nat} {c : Claim} (h : s.claim chan = some c) : chan < channelCount s.rate := by
  by_contra hlt
  rw [State.claim, if_neg hlt] at h
  exact nomatch h

theorem channelCount_le (r : Rate) : channelCount r ≤ 64 := by cases r <;> decide

/-- The claim table depends on the rate strap and the claims alone. -/
theorem claim_congr {s t : State} (hs : t.straps = s.straps) (hc : t.lanes.claims = s.lanes.claims) (chan : Nat) :
    t.claim chan = s.claim chan := by
  unfold State.claim State.rate
  rw [hs, hc]

theorem claim_setClaim {s : State} {j : Nat} {b : Claim} (h : s.claim j = some b) (k : Nat) (c : Claim) :
    (s.setClaim j c).claim k = if k = j then some c else s.claim k := by
  have hlt := claim_lt h
  split
  · rename_i e
    rw [e, claim_setClaim_self s j c hlt (hlt.trans_le (channelCount_le _))]
  · rename_i e
    rw [claim_setClaim_other s c e]

/-- An entry with one clip more where the take of `sum` clamps. -/
def clipped (sum : Int) (c : Claim) : Claim :=
  if takeClamps 0 sum = 0 then c else { c with clips := countUp c.clips 1 }

theorem clipped_clips (sum : Int) (c : Claim) :
    (clipped sum c).clips = if takeClamps 0 sum = 0 then c.clips else min 65535 (c.clips + 1) := by
  unfold clipped
  split <;> rfl

theorem claim_countClip (l : List (Nat × Int)) (s : State) (j k : Nat) :
    (State.countClip l s j).claim k =
      if k = j then (s.claim k).map (clipped (State.channelSum l k)) else s.claim k := by
  unfold State.countClip
  cases h : s.claim j with
  | none =>
    by_cases e : k = j
    · simp [e, h]
    · simp [e]
  | some c =>
    simp only
    by_cases hc : takeClamps 0 (State.channelSum l j) = 0
    · rw [if_pos hc]
      by_cases e : k = j
      · simp [e, h, clipped, hc]
      · simp [e]
    · rw [if_neg hc, claim_setClaim h]
      by_cases e : k = j
      · simp [e, h, clipped, hc]
      · simp [e]

/-- Counting the clips of several channels counts each once. -/
theorem claim_countClips (l : List (Nat × Int)) (k : Nat) :
    ∀ (chans : List Nat) (s : State), chans.Nodup → (chans.foldl (State.countClip l) s).claim k =
      if k ∈ chans then (s.claim k).map (clipped (State.channelSum l k)) else s.claim k
  | [], _, _ => by simp
  | j :: chans, s, h => by
    obtain ⟨hj, ht⟩ := List.nodup_cons.mp h
    rw [List.foldl_cons, claim_countClips l k chans _ ht, claim_countClip]
    by_cases e : k = j
    · subst e
      simp [hj]
    · simp [e]

theorem countClip_keeps_samples (l : List (Nat × Int)) (s : State) (chan : Nat) :
    (State.countClip l s chan).lanes.outNext = s.lanes.outNext := by
  unfold State.countClip
  (repeat' split) <;> rfl

/-- What FRAME forms for the output channels: the samples formed before leave, each channel has the take of its sum, and
its entry one clip more where that take clamps (R156, R165). -/
theorem formOutputs_spec (s : State) {chan : Nat} {sum : Int} (h : chan < channelCount s.rate)
    (hsum : sum = ((List.range 32).map (s.adds chan)).sum) :
    s.formOutputs.lanes.outNow = s.lanes.outNext ∧ s.formOutputs.lanes.outNext[chan]? = some (take 0 sum) ∧
    s.formOutputs.claim chan = (s.claim chan).map (clipped sum) := by
  rw [← channelSum_carried] at hsum
  subst hsum
  refine ⟨?_, ?_, ?_⟩
  · exact foldl_keeps (fun s : State => s.lanes.outNext) _ (countClip_keeps_samples _) _ s
  · simp [State.formOutputs, h]
  · have hcongr : s.formOutputs.claim chan =
        ((List.range (channelCount s.rate)).foldl (State.countClip s.carried') s).claim chan := rfl
    rw [hcongr, claim_countClips _ _ _ _ List.nodup_range, if_pos (List.mem_range.mpr h)]

/-! ## The rest of a frame keeps what was formed -/

theorem judgeClock_keeps (r : Rate) (x : Lanes) (lens : List Nat) :
    (State.judgeClock r x lens).outNow = x.outNow ∧ (State.judgeClock r x lens).outNext = x.outNext ∧
    (State.judgeClock r x lens).claims = x.claims := by
  have hcount : ∀ (y : Lanes) (p : Period), (State.countPeriod y p).outNow = y.outNow ∧
      (State.countPeriod y p).outNext = y.outNext ∧ (State.countPeriod y p).claims = y.claims := fun y p => by
    unfold State.countPeriod
    (repeat' split) <;> exact ⟨rfl, rfl, rfl⟩
  exact ⟨foldl_keeps Lanes.outNow _ (fun y p => (hcount y p).1) _ x,
    foldl_keeps Lanes.outNext _ (fun y p => (hcount y p).2.1) _ x,
    foldl_keeps Lanes.claims _ (fun y p => (hcount y p).2.2) _ x⟩

theorem judgeLanes_keeps (s : State) (f : FrameIn) :
    (s.judgeLanes f).lanes.outNow = s.lanes.outNow ∧ (s.judgeLanes f).lanes.outNext = s.lanes.outNext ∧
    (s.judgeLanes f).lanes.claims = s.lanes.claims := by
  obtain ⟨hnow, hnext, hclaims⟩ := judgeClock_keeps s.rate { s.lanes with inputs := _ } f.periods
  exact ⟨hnow, hnext, hclaims⟩

/-- A channel that becomes FREE keeps its clip count (R163). -/
theorem freeChannels_keeps (s : State) (k : Nat) :
    s.freeChannels.lanes.outNow = s.lanes.outNow ∧ s.freeChannels.lanes.outNext = s.lanes.outNext ∧
    (s.freeChannels.claim k).map Claim.clips = (s.claim k).map Claim.clips := by
  have hone : ∀ (t : State) (j : Nat), (t.freeChannel j).lanes.outNow = t.lanes.outNow ∧
      (t.freeChannel j).lanes.outNext = t.lanes.outNext ∧
      ((t.freeChannel j).claim k).map Claim.clips = (t.claim k).map Claim.clips := fun t j => by
    unfold State.freeChannel
    split
    · rename_i c hc
      split
      · refine ⟨rfl, rfl, ?_⟩
        rw [claim_setClaim hc]
        split
        · rename_i e
          rw [e, hc]
          rfl
        · rfl
      · exact ⟨rfl, rfl, rfl⟩
    · exact ⟨rfl, rfl, rfl⟩
  unfold State.freeChannels
  exact ⟨foldl_keeps (fun t : State => t.lanes.outNow) _ (fun t j => (hone t j).1) _ s,
    foldl_keeps (fun t : State => t.lanes.outNext) _ (fun t j => (hone t j).2.1) _ s,
    foldl_keeps (fun t : State => (t.claim k).map Claim.clips) _ (fun t j => (hone t j).2.2) _ s⟩

/-- What a frame forms for the output channels stands to its end: the samples, and the clip counts. -/
theorem frameBody_keeps_outputs (s v : State) (f : FrameIn) (k : Nat)
    (hv : allSlots.foldl (fun t j => t.runInst f (s.inputs f) j) (s.copyFrame f.faults) = v) :
    (s.frameBody f).lanes.outNow = v.formOutputs.lanes.outNow ∧
    (s.frameBody f).lanes.outNext = v.formOutputs.lanes.outNext ∧
    ((s.frameBody f).claim k).map Claim.clips = (v.formOutputs.claim k).map Claim.clips := by
  simp only [State.frameBody, hv]
  generalize v.formOutputs = w
  obtain ⟨jnow, jnext, jclaims⟩ := judgeLanes_keeps w.finishPass f
  generalize hx : State.pageClear _ 4 = x
  have hlanes : x.lanes = (w.finishPass.judgeLanes f).lanes := by simp [← hx]
  have hstraps : x.straps = w.straps := by simp [← hx]
  obtain ⟨fnow, fnext, fclips⟩ := freeChannels_keeps x k
  have hnow : x.lanes.outNow = w.lanes.outNow := by
    rw [hlanes, jnow]
    simp
  have hnext : x.lanes.outNext = w.lanes.outNext := by
    rw [hlanes, jnext]
    simp
  refine ⟨fnow.trans hnow, fnext.trans hnext, ?_⟩
  have hend : x.claim k = w.claim k := claim_congr hstraps (by rw [hlanes, jclaims]; simp) k
  rw [← hend, ← fclips]
  generalize x.freeChannels = y
  rfl

/-- The states before each slot of a frame are those of the fold over the slots. -/
theorem foldl_range_eq {σ : Type} (f : σ → Nat → σ) (v : Nat → σ) :
    ∀ n, (∀ k, k < n → v (k + 1) = f (v k) k) → (List.range n).foldl f (v 0) = v n
  | 0, _ => rfl
  | n + 1, h => by
    rw [List.range_succ, List.foldl_append, foldl_range_eq f v n fun k hk => h k (hk.trans n.lt_succ_self)]
    exact (h n n.lt_succ_self).symm

/-- The course of a running FRAME: the events due are taken, the effects run by rising slot, and the outputs formed stand
to its end. -/
theorem frameRuns_outputs {s t u : State} {f : FrameIn} {v : Nat → State} (hr : s.running = true)
    (h : FrameRuns s f t u v) (k : Nat) :
    t.lanes.outNow = (v 32).formOutputs.lanes.outNow ∧ t.lanes.outNext = (v 32).formOutputs.lanes.outNext ∧
    (t.claim k).map Claim.clips = ((v 32).formOutputs.claim k).map Claim.clips ∧
    (v 32).lanes = u.lanes ∧ (v 32).straps = u.straps := by
  obtain ⟨hexec, hu, h0, hstep⟩ := h
  have ht : t = u.frameBody f := by
    have hrun : exec (.frame f) s = .next (s.runFrame f) := congrArg Host.Outcome.next (whileRunning_on hr _)
    rw [hrun, Host.Outcome.next.injEq] at hexec
    rw [← hexec, hu, State.runFrame]
  have hv : allSlots.foldl (fun t j => t.runInst f (u.inputs f) j) (u.copyFrame f.faults) = v 32 := by
    rw [← h0]
    exact foldl_range_eq _ v 32 hstep
  obtain ⟨hnow, hnext, hclips⟩ := frameBody_keeps_outputs u (v 32) f k hv
  subst ht
  exact ⟨hnow, hnext, hclips, by simp [← hv], by simp [← hv]⟩

/-! ## The statement -/

/-- Settles O12: the clauses in the order of the statement, each by the lemma on its kind, on the damping, on the decay
gains, on the output chain, or on the output channels. -/
theorem kindsComputeWritesAndOutputs : Obligations.KindsComputeWritesAndOutputs := by
  refine ⟨fun r i x reads => ⟨kindFrame_writes_range r i x reads, fun hh => ⟨fun y => kindFrame_input_held hh r x y reads,
      fun v hk hreads => hreads ▸ delay_held hh hk r x v, fun v w hk hreads => hreads ▸ pingpong_held hh hk r x v w,
      fun n y hk hn _ hy => multitap_held hh hk r x reads hn hy, fun hk => ?_, fun hk left right hs => ?_,
      fun hk k hkr => hkr ▸ tapped_outputs_held hk r x reads, ?_⟩,
    fun hh fb hfb z hz => ⟨fun v y hk hreads hy => ?_, fun v w y0 y1 cross hk hreads h0 h1 hc => ?_,
      fun n y hk hn _ hy => ?_, fun hk v hv => ⟨?_, fun left right hs => ?_⟩, ?_⟩⟩,
    fun r i n damp k k0 k1 d0 d1 hn hdamp hk => ?_, fun r i j decay size hj hk hi h2 h3 hd => ?_,
    fun r i j input reads k g dip fade hj hk hg henv hdip hfade => ?_, fun r i input reads k g hk hg => ?_,
    fun s t u f v chan sum hr h hchan hsum => ?_, fun s chan sum hchan hsum => ?_⟩
  · rw [chorus_writes hk, isHeld_of_held hh]
    simp
  · rw [(chorus_outputs hk r x reads hs).2.2, isHeld_of_held hh]
    simp
  · rintro pre d1 d2 d3 d4 n1 n2 n3 n4 hk rfl
    exact reverb_held hh hk r x pre d1 d2 d3 d4 n1 n2 n3 n4
  · subst hreads
    exact delay_running hh hk r x v (hfb _) (hy.trans (hz 0 v))
  · subst hreads
    exact pingpong_running hh hk r x v w (hfb _) (h0.trans (hz 0 v)) (h1.trans (hz 1 w)) hc
  · exact multitap_running hh hk r x reads hn (hfb _) (hy.trans (hz 0 _))
  · rw [chorus_writes hk, isHeld_of_not_held hh]
    simp [hfb, hv]
  · obtain rfl : v = fun k => reads.getD k 0 := funext hv
    obtain ⟨hl, hrt, hc⟩ := chorus_outputs hk r x reads hs
    refine ⟨hl, hrt, ?_⟩
    rw [hc, isHeld_of_not_held hh]
    simp [hfb]
  · rintro pre d1 d2 d3 d4 n1 n2 n3 n4 hk rfl
    exact reverb_running hh hk r hfb hz x pre d1 d2 d3 d4 n1 n2 n3 n4
  · have hparam : n = dampParam i.choice.kind := by
      rw [hn]
      cases i.choice.kind <;> rfl
    refine dampNow_of_coefficient r i ?_
    rw [← hparam, ← hdamp]
    rcases hk with ⟨rfl, rfl⟩ | ⟨m, h0, h1, hl, hu, rfl⟩
    · exact dampCoefficient_bypass r
    · exact dampCoefficient_of_points h0 h1 hl hu
  · rw [refreshDecay_spec r hk hi, h2, h3] at hj
    subst hj
    exact ⟨rfl, rfl, rfl, decayGains_decayOf r hk hd⟩
  · subst hj hk hg
    obtain ⟨hl, hrt⟩ := outputInst_outputs r input reads henv
    have hdip' : dip = dipScale r i := funext fun v => (hdip v).trans (by unfold dipScale; cases i.dip.phase <;> rfl)
    have hfade' : fade = fadeScale r i := funext hfade
    rw [hdip', hfade']
    exact ⟨hl, hrt⟩
  · subst hk hg
    exact outputInst_saturation r i input reads
  · obtain ⟨hnow, hnext, hclips, hlanes, hstraps⟩ := frameRuns_outputs hr h chan
    have hclaim : (v 32).claim chan = u.claim chan := claim_congr hstraps (by rw [hlanes]) chan
    have hlt : chan < channelCount (v 32).rate := by rwa [State.rate, hstraps]
    obtain ⟨fnow, fnext, fclaim⟩ := formOutputs_spec (v 32) hlt hsum
    refine ⟨by rw [hnow, fnow, hlanes], by rw [hnext, fnext], fun c hc => ?_⟩
    rw [fclaim, hclaim, hc] at hclips
    obtain ⟨d, hd, hdc⟩ := Option.map_eq_some_iff.mp hclips
    exact ⟨d, hd, hdc.trans (clipped_clips sum c)⟩
  · obtain ⟨fnow, fnext, fclaim⟩ := formOutputs_spec s hchan hsum
    refine ⟨fnow, fnext, fun c hc => ?_⟩
    have hq : takeQuotient 0 sum = (sum + 16384) / 32768 := rfl
    rw [fclaim, hc, Option.map_some, clipped, takeClamps_eq, hq]
    by_cases hin : -8388608 ≤ (sum + 16384) / 32768 ∧ (sum + 16384) / 32768 ≤ 8388607
    · rw [if_pos hin, if_pos hin, if_pos rfl]
    · rw [if_neg hin, if_neg hin, if_neg one_ne_zero]
      rfl

end Sys2Proof.Signal
end

section
/-! Changes of a parameter (chapter 4) where no dip and no crossfade waits for its end: what `startChange` does to the
record of a parameter, and that pending updates act one by one in list order (O34). -/
namespace Sys2Proof.Signal
open Sys2Proof.Machine

/-! ## Records in which nothing waits for an end -/

/-- No dip and no crossfade of a record waits for the event that ends it. -/
def Ready (r : Rate) (i : Inst) : Prop := (∀ p, p ∈ i.params → p.Settled) ∧ i.dip.pos ≤ r.pick 240 480

section
variable {r : Rate} {i : Inst}

theorem dipSwitch_of_ready (h : Ready r i) : i.dipSwitch r = i :=
  if_neg fun ⟨_, hd⟩ => absurd hd (Nat.not_lt.mpr h.2)

theorem dipEnd_of_ready (h : Ready r i) : i.dipEnd r = i :=
  if_neg fun ⟨_, hd⟩ => absurd hd (Nat.not_lt.mpr h.2)

theorem crossfadeEnd_of_ready (h : Ready r i) (n : Nat) : i.crossfadeEnd r n = i := by
  unfold Inst.crossfadeEnd
  split
  · rename_i p x w hp
    have hx := h.1 _ (mem_of_param hp).1 x rfl
    rw [if_neg (Nat.not_lt.mpr hx)]
  · rfl

/-- A time parameter is changed by crossfade as its CHANGE_MODE in effect says, which no other change moves. -/
theorem crossfades_congr {j : Inst} (hi : Ready r i) (hj : Ready r j) (hc : j.choice = i.choice)
    (hv : j.value 7 = i.value 7) : j.crossfades r = i.crossfades r := by
  unfold Inst.crossfades Inst.discreteNow
  rw [hc, dipSwitch_of_ready hi, dipSwitch_of_ready hj, hv]

end

/-! ## One parameter changed -/

/-- The record `j` is `i` with the record of parameter `n` changed, and `Q` holds of it before and after; the change leaves
no crossfade waiting for its end. -/
def ChangesParam (i j : Inst) (n : Nat) (Q : Param → Param → Prop) : Prop :=
  ∃ f : Param → Param, (∀ p, (f p).num = p.num) ∧ (∀ p, p.Settled → (f p).Settled) ∧ j = i.modParam n f ∧
    ∀ p, i.param n = some p → Q p (f p)

theorem changesParam_modParam {i : Inst} {n : Nat} {Q : Param → Param → Prop} {f : Param → Param}
    (hn : ∀ p, (f p).num = p.num) (hs : ∀ p, p.Settled → (f p).Settled) (hQ : ∀ p, i.param n = some p → Q p (f p)) :
    ChangesParam i (i.modParam n f) n Q :=
  ⟨f, hn, hs, rfl, hQ⟩

theorem modParam_modParam (i : Inst) (n : Nat) (f : Param → Param) {g : Param → Param} (hg : ∀ p, (g p).num = p.num) :
    (i.modParam n g).modParam n f = i.modParam n fun p => f (g p) := by
  simp only [Inst.modParam, List.map_map]
  congr 1
  refine List.map_congr_left fun p _ => ?_
  by_cases h : p.num = n <;> simp [h, hg]

theorem value_modParam (i : Inst) (n k : Nat) {f : Param → Param} (hn : ∀ p, (f p).num = p.num)
    (hv : ∀ p, (f p).value = p.value) : (i.modParam n f).value k = i.value k := by
  simp only [Inst.value, param_modParam i n k hn]
  cases i.param k with
  | none => simp
  | some p => by_cases h : k = n <;> simp [h, hv]

theorem ready_modParam {r : Rate} {i : Inst} (h : Ready r i) (n : Nat) {f : Param → Param}
    (hf : ∀ p, p.Settled → (f p).Settled) : Ready r (i.modParam n f) := by
  refine ⟨fun q hq => ?_, h.2⟩
  obtain ⟨p, hp, rfl⟩ := List.mem_map.mp hq
  split
  · exact hf p (h.1 p hp)
  · exact h.1 p hp

theorem ChangesParam.ready {r : Rate} {i j : Inst} {n : Nat} {Q : Param → Param → Prop} (h : ChangesParam i j n Q)
    (hi : Ready r i) : Ready r j := by
  obtain ⟨f, _, hs, rfl, _⟩ := h
  exact ready_modParam hi n hs

theorem ChangesParam.mono {i j : Inst} {n : Nat} {Q R : Param → Param → Prop} (h : ChangesParam i j n Q)
    (hQR : ∀ p q, i.param n = some p → Q p q → R p q) : ChangesParam i j n R := by
  obtain ⟨f, hn, hs, hj, hQ⟩ := h
  exact ⟨f, hn, hs, hj, fun p hp => hQR p _ hp (hQ p hp)⟩

/-- A change after one that touches neither crossfade nor number. -/
theorem ChangesParam.after {i j : Inst} {n : Nat} {Q : Param → Param → Prop} {g : Param → Param}
    (h : ChangesParam (i.modParam n g) j n Q) (hn : ∀ p, (g p).num = p.num) (hx : ∀ p, (g p).xfade = p.xfade) :
    ChangesParam i j n fun p q => Q (g p) q := by
  obtain ⟨f, hfn, hfs, rfl, hQ⟩ := h
  refine ⟨fun p => f (g p), fun p => (hfn _).trans (hn p), fun p hp => hfs _ fun x hgx => hp x (hx p ▸ hgx),
    modParam_modParam i n f hn, fun p hp => hQ _ ?_⟩
  rw [param_modParam i n n hn, if_pos rfl, hp]
  rfl

theorem changesParam_jump (i : Inst) (n : Nat) (v : Val) :
    ChangesParam i (i.modParam n fun p => p.jump v) n fun p q => p.Jumps q v :=
  changesParam_modParam (fun _ => rfl) (fun _ _ _ h => nomatch h) fun _ _ => rfl

theorem rampTo_num (p : Param) (v : Val) (n : Nat) : (p.rampTo v n).num = p.num := by
  unfold Param.rampTo
  split <;> rfl

theorem rampTo_xfade (p : Param) (v : Val) (n : Nat) : (p.rampTo v n).xfade = p.xfade := by
  unfold Param.rampTo
  split <;> rfl

theorem changesParam_rampTo (i : Inst) (n : Nat) (v : Val) (frames : Nat) :
    ChangesParam i (i.modParam n fun p => p.rampTo v frames) n fun p q => p.Moves q v frames :=
  changesParam_modParam (fun p => rampTo_num p v frames) (fun p h x hx => h x (rampTo_xfade p v frames ▸ hx))
    fun _ _ => rfl

/-! ## Delay times (R53, R85 to R87, R89) -/

theorem stand_num (p : Param) : p.stand.num = p.num := by
  unfold Param.stand
  split <;> rfl

theorem stand_xfade (p : Param) : p.stand.xfade = p.xfade := by
  unfold Param.stand
  split <;> rfl

theorem stands_stand (p : Param) : p.Stands p.stand :=
  ⟨fun h => by simp [Param.stand, h], fun g h => by simp [Param.stand, h]⟩

theorem changesParam_standDelay {r : Rate} {i : Inst} (h : Ready r i) (n : Nat) :
    ChangesParam i (i.standDelay r n) n Param.Stands := by
  rw [Inst.standDelay, crossfadeEnd_of_ready h]
  exact changesParam_modParam stand_num (fun p hp x hx => hp x (stand_xfade p ▸ hx)) fun p _ => stands_stand p

theorem changesParam_startDelay (r : Rate) (i : Inst) (n : Nat) (target : Int) (frames : Nat) :
    ChangesParam i (i.startDelay r n target frames) n fun p q => i.DelayStarts r p q target frames := by
  unfold Inst.startDelay
  by_cases hc : i.crossfades r = true
  · simp only [hc, if_true]
    refine changesParam_modParam (fun _ => rfl) (fun p _ x hx => ?_) fun p _ =>
      ⟨fun _ => rfl, fun h => absurd (hc.symm.trans h) (by decide)⟩
    obtain rfl := Option.some.inj hx
    show 1 ≤ if frames = 0 then r.pick 480 960 else frames
    split
    · cases r <;> decide
    · omega
  · simp only [hc]
    exact (changesParam_rampTo i n _ frames).mono fun p q _ h => ⟨fun h' => absurd h' hc, fun _ => h⟩

theorem changesParam_changeDelay {r : Rate} {i : Inst} (h : Ready r i) (n : Nat) (target : Int) (frames : Nat)
    (retarget : Bool) : ChangesParam i (i.changeDelay r n target frames retarget).1 n fun p q =>
      i.DelayChanges r p q target frames retarget := by
  unfold Inst.changeDelay
  by_cases hp : i.state = .priming
  · rw [if_pos hp]
    exact (changesParam_jump i n _).mono fun p q _ hq => ⟨fun _ => hq, fun h' => absurd hp h', fun h' => absurd hp h'⟩
  · rw [if_neg hp, crossfadeEnd_of_ready h]
    dsimp only
    split
    · rename_i hp0
      refine changesParam_modParam (fun _ => rfl) (fun p hs x hx => hs x hx) fun p hpn =>
        ⟨fun h' => absurd h' hp, fun _ _ => rfl, fun _ hx => ?_⟩
      rw [hp0, Option.some.injEq] at hpn
      exact nomatch hpn ▸ hx
    · rename_i hnone
      refine (changesParam_startDelay r i n target frames).mono fun p q hpn hq => ⟨fun h' => absurd h' hp, fun _ hx => ?_,
        fun _ _ => hq⟩
      obtain ⟨x, hx⟩ := Option.ne_none_iff_exists'.mp hx
      exact absurd hpn (by
        obtain ⟨num, prev, value, target, ramp, discrete, division, xfade, waiting⟩ := p
        subst hx
        exact hnone _ _ _ _ _ _ _ _ _)

/-! ## DISCRETE parameters (R83, R84) -/

theorem putIn_putValue (l : List (Nat × Int)) (n : Nat) (x : Int) : PutIn l (Inst.putValue l n x) n x := by
  unfold Inst.putValue
  split
  · rename_i hany
    simp only [List.any_eq_true, decide_eq_true_eq] at hany
    obtain ⟨c, hc, hcn⟩ := hany
    refine ⟨List.mem_map.mpr ⟨c, hc, if_pos hcn⟩, fun d hd hdn => ?_, fun d hdn => ?_⟩
    · obtain ⟨e, _, rfl⟩ := List.mem_map.mp hd
      by_cases hen : e.1 = n
      · simp [hen]
      · rw [if_neg hen] at hdn
        exact absurd hdn hen
    · refine ⟨fun hd => ?_, fun hd => List.mem_map.mpr ⟨d, hd, if_neg hdn⟩⟩
      obtain ⟨e, he, rfl⟩ := List.mem_map.mp hd
      by_cases hen : e.1 = n
      · rw [if_pos hen] at hdn
        exact absurd rfl hdn
      · rwa [if_neg hen]
  · rename_i hany
    simp only [List.any_eq_true, decide_eq_true_eq, not_exists, not_and] at hany
    refine ⟨by simp, fun d hd hdn => ?_, fun d hdn => ?_⟩
    · rcases List.mem_append.mp hd with hd | hd
      · exact absurd hdn (hany d hd)
      · rw [List.mem_singleton.mp hd]
    · refine ⟨fun hd => ?_, fun hd => List.mem_append_left _ hd⟩
      rcases List.mem_append.mp hd with hd | hd
      · exact hd
      · exact absurd (congrArg Prod.fst (List.mem_singleton.mp hd)) hdn

/-- A DISCRETE parameter in a frame that runs begins a fall or joins a set of the dip, and nothing else changes. -/
theorem changeDiscrete_spec {r : Rate} {i : Inst} (h : Ready r i) (hp : i.state ≠ .priming) (n : Nat) (x : Int) :
    { i.changeDiscrete r n x with dip := i.dip } = i ∧ i.DipTakes (i.changeDiscrete r n x) n x ∧
    Ready r (i.changeDiscrete r n x) := by
  unfold Inst.changeDiscrete
  rw [if_neg hp, dipSwitch_of_ready h, dipEnd_of_ready h]
  dsimp only
  cases hd : i.dip.phase with
  | none =>
    refine ⟨by dsimp only; split <;> rfl, ⟨fun _ => by dsimp only; split <;> rfl, fun h' => ?_, fun h' => ?_⟩, ?_⟩
    · exact nomatch hd.symm.trans h'
    · exact nomatch hd.symm.trans h'
    · dsimp only
      split
      · exact h
      · exact ⟨h.1, show 1 ≤ r.pick 240 480 by cases r <;> decide⟩
  | fall =>
    exact ⟨rfl, ⟨fun h' => (nomatch hd.symm.trans h'), fun _ => ⟨by dsimp only; rw [← hd], putIn_putValue _ n x⟩,
      fun h' => (nomatch hd.symm.trans h')⟩, h⟩
  | rise =>
    exact ⟨rfl, ⟨fun h' => (nomatch hd.symm.trans h'), fun h' => (nomatch hd.symm.trans h'),
      fun _ => ⟨by dsimp only; rw [← hd], putIn_putValue _ n x⟩⟩, h⟩

/-! ## Changes of any parameter (R75 to R80) -/

theorem isTime_iff (f : PForm) : f.isTime = true ↔ f = .samples ∨ f = .millis ∨ f = .base := by
  cases f <;> simp [PForm.isTime]

theorem not_isTime {f : PForm} (h : f.isTime ≠ true) : f ≠ .samples ∧ f ≠ .millis ∧ f ≠ .base := by
  rwa [ne_eq, isTime_iff, not_or, not_or] at h

/-- A delay change is that of a record with the same state in which CHANGE_MODE is the same. -/
theorem delayChanges_congr {r : Rate} {i j : Inst} {p q : Param} {d : Int} {n : Nat} {retarget : Bool}
    (h : j.DelayChanges r p q d n retarget) (hs : j.state = i.state) (hc : j.crossfades r = i.crossfades r) :
    i.DelayChanges r p q d n retarget := by
  unfold Inst.DelayChanges Inst.DelayStarts at *
  rwa [hs, hc] at h

section
variable {r : Rate} {i : Inst} {n : Nat} {sp : PSpec}

/-- A division put on a parameter, or taken from it, before its delay changes. -/
theorem changesParam_divided (h : Ready r i) (division : Option Nat) (target : Int) (frames : Nat) :
    ChangesParam i ((i.modParam n fun p => { p with division := division }).changeDelay r n target frames false).1 n
      fun p q => i.DelayChanges r { p with division := division } q target frames false := by
  have hready : Ready r (i.modParam n fun p => { p with division := division }) := ready_modParam h n fun _ hp => hp
  have hcross := crossfades_congr h hready rfl (value_modParam i n 7 (fun _ => rfl) fun _ => rfl)
  exact ((changesParam_changeDelay hready n target frames false).after (fun _ => rfl) fun _ => rfl).mono
    fun p q _ hq => delayChanges_congr hq rfl hcross

theorem startChange_gain (hs : paramSpec r i.choice n = some sp) (fpb : Option Nat) (g : Val) (frames : Nat) :
    ChangesParam i (i.startChange r fpb n (.gain g) frames).1 n fun p q =>
      i.ParamTakes r fpb sp p q (.gain g) frames := by
  simp only [Inst.startChange, hs, Inst.ParamTakes]
  by_cases hp : i.state = .priming
  · rw [if_pos hp]
    exact (changesParam_jump i n g).mono fun p q _ hq => ⟨fun _ => hq, fun h' => absurd hp h'⟩
  · rw [if_neg hp]
    exact (changesParam_rampTo i n g frames).mono fun p q _ hq => ⟨fun h' => absurd h' hp, fun _ => hq⟩

theorem startChange_free (h : Ready r i) (hs : paramSpec r i.choice n = some sp) (hd : sp.discrete = false)
    (fpb : Option Nat) (x : Int) (frames : Nat) :
    ChangesParam i (i.startChange r fpb n (.free x) frames).1 n fun p q =>
      i.ParamTakes r fpb sp p q (.free x) frames := by
  simp only [Inst.startChange, hs, hd, Inst.ParamTakes, Bool.false_eq_true, if_false]
  by_cases ht : sp.form.isTime = true
  · rw [if_pos ht]
    refine (changesParam_divided h none (keptValue r sp.form x) frames).mono fun p q _ hq => ⟨fun _ => hq, fun h1 h2 h3 => ?_⟩
    rcases (isTime_iff _).mp ht with ht | ht | ht
    · exact absurd ht h1
    · exact absurd ht h2
    · exact absurd ht h3
  · rw [if_neg ht]
    obtain ⟨h1, h2, h3⟩ := not_isTime ht
    have hform : ¬(sp.form = .samples ∨ sp.form = .millis ∨ sp.form = .base) := by simp [h1, h2, h3]
    split
    · rename_i honce
      refine changesParam_modParam (fun _ => rfl) (fun _ _ _ hx => nomatch hx) fun p hpn =>
        ⟨fun h' => absurd h' hform, fun _ _ _ => ⟨fun _ => rfl, fun hp hdiv => ?_⟩⟩
      simp [hp, hpn, hdiv] at honce
    · rename_i honce
      refine (changesParam_rampTo i n _ frames).mono fun p q hpn hq =>
        ⟨fun h' => absurd h' hform, fun _ _ _ => ⟨fun hor => ?_, fun _ _ => hq⟩⟩
      simp only [hpn, Option.bind_some, Bool.or_eq_true, decide_eq_true_eq, Option.isSome_iff_ne_none] at honce
      exact absurd hor honce

theorem startChange_division (h : Ready r i) (hs : paramSpec r i.choice n = some sp) (fpb : Option Nat) (code : Nat)
    (frames : Nat) :
    ChangesParam i (i.startChange r fpb n (.division code) frames).1 n fun p q =>
      i.ParamTakes r fpb sp p q (.division code) frames := by
  simp only [Inst.startChange, hs, Inst.ParamTakes]
  by_cases ht : sp.form.isTime = true
  · have hform := (isTime_iff _).mp ht
    have hnot : sp.form ≠ .samples → sp.form ≠ .millis → sp.form ≠ .base → False := fun h1 h2 h3 =>
      hform.elim h1 fun h' => h'.elim h2 h3
    rw [if_pos ht]
    cases fpb with
    | none =>
      have hready : Ready r (i.modParam n fun p => { p with division := some code }) := ready_modParam h n fun _ hp => hp
      exact ((changesParam_standDelay hready n).after (fun _ => rfl) fun _ => rfl).mono
        fun p q _ hq => ⟨fun _ => ⟨fun b hb => (nomatch hb), fun _ => hq⟩, fun h1 h2 h3 => (hnot h1 h2 h3).elim⟩
    | some b =>
      refine (changesParam_divided h (some code) (syncedDelay b code (largestDelay r sp) : Nat) frames).mono
        fun p q _ hq => ⟨fun _ => ⟨fun b' hb => ?_, fun hb => (nomatch hb)⟩, fun h1 h2 h3 => (hnot h1 h2 h3).elim⟩
      obtain rfl := Option.some.inj hb
      exact hq
  · rw [if_neg ht]
    obtain ⟨h1, h2, h3⟩ := not_isTime ht
    exact changesParam_modParam (fun _ => rfl) (fun _ hp => hp) fun p _ =>
      ⟨fun h' => by simp [h1, h2, h3] at h', fun _ _ _ => rfl⟩

theorem startChange_priming (hs : paramSpec r i.choice n = some sp) (hd : sp.discrete = true) (hp : i.state = .priming)
    (fpb : Option Nat) (x : Int) (frames : Nat) :
    ChangesParam i (i.startChange r fpb n (.free x) frames).1 n fun p q => p.Jumps q { m := x, e := 0 } := by
  simp only [Inst.startChange, hs, hd, if_true, Inst.changeDiscrete, if_pos hp]
  exact changesParam_jump i n _

end

/-- A change of a parameter other than a DISCRETE one that waits for a dip changes the record of that parameter alone. -/
theorem takes_of_changesParam {r : Rate} {fpb : Option Nat} {i j : Inst} {n : Nat} {v : Accepted} {frames : Nat}
    {sp : PSpec} {Q : Param → Param → Prop} (hs : paramSpec r i.choice n = some sp) (h : ChangesParam i j n Q)
    (hwait : ∀ x, v = .free x → sp.discrete = true → i.state = .priming ∧ ∀ p q, Q p q → p.Jumps q { m := x, e := 0 })
    (htakes : sp.discrete = false ∨ (∀ x, v ≠ .free x) → ∀ p q, Q p q → i.ParamTakes r fpb sp p q v frames) :
    i.Takes r fpb j n v frames := by
  obtain ⟨f, hn, _, rfl, hQ⟩ := h
  have hrec : ∀ p, i.param n = some p → (i.modParam n f).param n = some (f p) := fun p hp => by
    rw [param_modParam i n n hn, if_pos rfl, hp]
    rfl
  refine ⟨rfl, fun k hk => by rw [param_modParam i n k hn, if_neg hk], fun hnone => (nomatch hs.symm.trans hnone),
    fun sp' p hs' hp => ?_⟩
  obtain rfl := Option.some.inj (hs.symm.trans hs')
  exact ⟨fun x hx hd hnp => absurd (hwait x hx hd).1 hnp,
    fun x hx hd _ => ⟨rfl, _, hrec p hp, (hwait x hx hd).2 p _ (hQ p hp)⟩,
    fun hc => ⟨rfl, _, hrec p hp, htakes hc p _ (hQ p hp)⟩⟩

/-- A change of a parameter acts as the SET with the condition NOW does, and leaves nothing waiting for its end. -/
theorem startChange_takes {r : Rate} {i : Inst} (h : Ready r i) (fpb : Option Nat) (n : Nat) (v : Accepted) (frames : Nat) :
    i.Takes r fpb (i.startChange r fpb n v frames).1 n v frames ∧ Ready r (i.startChange r fpb n v frames).1 := by
  cases hs : paramSpec r i.choice n with
  | none =>
    have hsame : (i.startChange r fpb n v frames).1 = i := by simp only [Inst.startChange, hs]
    rw [hsame]
    exact ⟨⟨rfl, fun _ _ => rfl, fun _ => rfl, fun sp p hs' _ => nomatch hs.symm.trans hs'⟩, h⟩
  | some sp =>
    cases v with
    | gain g =>
      have hc := startChange_gain hs fpb g frames
      exact ⟨takes_of_changesParam hs hc (fun x hx => nomatch hx) fun _ _ _ hq => hq, hc.ready h⟩
    | division code =>
      have hc := startChange_division h hs fpb code frames
      exact ⟨takes_of_changesParam hs hc (fun x hx => nomatch hx) fun _ _ _ hq => hq, hc.ready h⟩
    | free x =>
      cases hd : sp.discrete with
      | false =>
        have hc := startChange_free h hs hd fpb x frames
        exact ⟨takes_of_changesParam hs hc (fun _ _ hd' => nomatch hd.symm.trans hd') fun _ _ _ hq => hq, hc.ready h⟩
      | true =>
        by_cases hp : i.state = .priming
        · have hc := startChange_priming hs hd hp fpb x frames
          refine ⟨takes_of_changesParam hs hc (fun y hy _ => ⟨hp, fun p q hq => ?_⟩) fun hor => ?_, hc.ready h⟩
          · obtain rfl := Accepted.free.inj hy
            exact hq
          · rcases hor with hd' | hne
            · exact nomatch hd.symm.trans hd'
            · exact absurd rfl (hne x)
        · have hstart : (i.startChange r fpb n (.free x) frames).1 = i.changeDiscrete r n x := by
            simp only [Inst.startChange, hs, hd, if_true]
          obtain ⟨hrest, hdip, hready⟩ := changeDiscrete_spec h hp n x
          rw [hstart]
          have hparams : (i.changeDiscrete r n x).params = i.params := (congrArg Inst.params hrest :)
          refine ⟨⟨?_, fun k _ => congrArg (List.find? _) hparams, fun hnone => (nomatch hs.symm.trans hnone),
            fun sp' p hs' _ => ⟨fun y hy _ _ => ⟨hparams, ?_⟩, fun _ _ _ hp' => absurd hp' hp, fun hor => ?_⟩⟩, hready⟩
          · rw [← hparams]
            exact hrest
          · obtain rfl := Accepted.free.inj hy
            exact hdip
          · obtain rfl := Option.some.inj (hs.symm.trans hs')
            rcases hor with hd' | hne
            · exact nomatch hd.symm.trans hd'
            · exact absurd rfl (hne x)

/-! ## Pending updates (R80) -/

/-- The updates of a list, each taking effect on the record that the ones before it leave. -/
def takeUpdates (r : Rate) (fpb : Option Nat) (i : Inst) (l : List Update) : Inst :=
  l.foldl (fun i u => (i.startChange r fpb u.param u.value (r.ms u.ramp)).1) i

theorem ready_takeUpdates {r : Rate} (fpb : Option Nat) :
    ∀ (l : List Update) {i : Inst}, Ready r i → Ready r (takeUpdates r fpb i l)
  | [], _, h => h
  | u :: l, _, h => ready_takeUpdates fpb l (startChange_takes h fpb u.param u.value (r.ms u.ramp)).2

theorem takeUpdates_take_succ (r : Rate) (fpb : Option Nat) (i : Inst) {l : List Update} {k : Nat} {u : Update}
    (h : l[k]? = some u) : takeUpdates r fpb i (l.take (k + 1)) =
      ((takeUpdates r fpb i (l.take k)).startChange r fpb u.param u.value (r.ms u.ramp)).1 := by
  rw [takeUpdates, List.take_add_one, h, List.foldl_append]
  rfl

/-- The updates due leave the list and act in list order, each as a SET with the condition NOW. -/
theorem applyUpdates_taken {r : Rate} {i : Inst} (h : Ready r i) (fpb : Option Nat) (conds : List Cond) :
    i.UpdatesTaken r fpb (i.applyUpdates r fpb conds) conds := by
  have hrest : Ready r { i with updates := i.updates.filter fun u => decide (u.cond ∉ conds) } := h
  refine ⟨_, fun k => takeUpdates r fpb { i with updates := i.updates.filter fun u => decide (u.cond ∉ conds) }
    ((i.updates.filter fun u => decide (u.cond ∈ conds)).take k), rfl, rfl, fun k u hk => ?_, ?_⟩
  · dsimp only
    rw [takeUpdates_take_succ r fpb _ hk]
    exact (startChange_takes (ready_takeUpdates fpb _ hrest) fpb u.param u.value (r.ms u.ramp)).1
  · simp only [List.take_length]
    rfl

end Sys2Proof.Signal
end

section
/-! Beat events and oscillator wraps (R40, R41, R80, R96, R97, R147), and the statement on them (O34). A record of a recall
keeps its face (its number, condition, clock, apply frame, and whether it is ARMED) through every operation but the apply of
its own port. -/
namespace Sys2Proof.Signal
open Sys2Proof.Machine

/-! ## The face of a record -/

/-- What of a record decides whether it is applied, and tells that it has been. -/
structure Face where
  number : Nat
  cond : Cond
  clock : Option Nat
  applyFrame : Option FrameNo
  armed : Bool

/-- The face of a record. -/
def faceOf (r : Record) : Face := ⟨r.number, r.cond, r.clock, r.applyFrame, decide (r.state = .armed)⟩

/-- The face of the record of a port, where it has one. -/
def face (s : State) (p : Port) : Option Face := (s.rc p).record.map faceOf

theorem face_of_recalls {s t : State} (h : t.recalls = s.recalls) (p : Port) : face t p = face s p := by
  unfold face State.rc
  rw [h]

theorem face_modRecord_other (s : State) {p q : Port} (h : q ≠ p) (f : Record → Record) :
    face (s.modRecord p f) q = face s q := by
  unfold face
  rw [rc_modRecord, if_neg h]

theorem face_modRecord_self (s : State) (p : Port) (f : Record → Record) :
    face (s.modRecord p f) p = (s.rc p).record.map fun r => faceOf (f r) := by
  unfold face
  rw [rc_modRecord, if_pos rfl, Option.map_map]
  rfl

/-- A change of a record that keeps its face. -/
theorem face_modRecord {s : State} {p : Port} {f : Record → Record}
    (h : ∀ r, (s.rc p).record = some r → faceOf (f r) = faceOf r) (q : Port) : face (s.modRecord p f) q = face s q := by
  by_cases e : q = p
  · subst e
    rw [face_modRecord_self, face]
    exact Option.map_congr fun r hr => h r hr
  · exact face_modRecord_other s e f

@[simp] theorem face_setResult (s : State) (p : Port) (n : Nat) (x : ItemResult) (q : Port) :
    face (s.setResult p n x) q = face s q := by
  unfold State.setResult
  refine face_modRecord ?_ q
  exact fun _ _ => rfl

@[simp] theorem face_raise (s : State) (p : Port) (c : NoticeClass) (d : Detail) (q : Port) :
    face (s.raise p c d) q = face s q :=
  face_of_recalls (by simp) q

@[simp] theorem face_dropTags (s : State) (p : Port) (n : Nat) (q : Port) : face (s.dropTags p n) q = face s q :=
  face_of_recalls (by simp) q

@[simp] theorem face_setInst (s : State) (k : Nat) (i : Inst) (q : Port) : face (s.setInst k i) q = face s q :=
  face_of_recalls (by simp) q

@[simp] theorem face_modInst (s : State) (k : Nat) (f : Inst → Inst) (q : Port) : face (s.modInst k f) q = face s q :=
  face_of_recalls (by simp) q

@[simp] theorem face_enterFading (s : State) (slot : Nat) (i : Inst) (n : Nat) (b : Bool) (c : Option Port) (q : Port) :
    face (s.enterFading slot i n b c) q = face s q :=
  face_of_recalls (by simp) q

/-- A SETTLING record that settles was not ARMED, and is not. -/
@[simp] theorem face_settleTest (s : State) (p q : Port) : face (s.settleTest p) q = face s q := by
  unfold State.settleTest
  split
  · rfl
  · rename_i r hr
    split
    · rename_i h
      rw [face_raise, face_dropTags]
      refine face_modRecord (fun r' hr' => ?_) q
      obtain rfl := Option.some.inj (hr.symm.trans hr')
      simp only [faceOf, h.1]
      congr 1
      split <;> rfl
    · rfl

@[simp] theorem face_foldl {α : Type} {f : State → α → State} {q : Port} (h : ∀ t x, face (f t x) q = face t q) (l : List α)
    (s : State) : face (l.foldl f s) q = face s q :=
  foldl_keeps (fun t => face t q) f h l s

/-! ## Operations of an apply that keep every face -/

@[simp] theorem face_setUpItem (s : State) (slot : Nat) (base : Inst) (k : Kept) (q : Port) :
    face (s.setUpItem slot base k) q = face s q := by
  simp only [State.setUpItem, face_setResult]
  exact face_of_recalls (by simp) q

@[simp] theorem face_offerSlot (s : State) (slot : Nat) (q : Port) : face (s.offerSlot slot) q = face s q := by
  unfold State.offerSlot
  split
  · split
    · split
      · rw [face_settleTest, face_setUpItem]
        exact face_of_recalls rfl q
      · exact face_setInst ..
    · rfl
  · rfl

@[simp] theorem face_offerResources (s : State) (q : Port) : face s.offerResources q = face s q :=
  face_foldl (fun t x => face_offerSlot t x q) _ s

@[simp] theorem face_freeInst (s : State) (slot : Nat) (i : Inst) (why : Option FreeReason) (q : Port) :
    face (s.freeInst slot i why) q = face s q := by
  simp only [State.freeInst, face_settleTest, face_offerResources]
  refine face_of_recalls ?_ q
  (repeat' split) <;> simp

@[simp] theorem face_release (s : State) (slot : Nat) (i : Inst) (mode : RelMode) (n : Nat) (q : Port) :
    face (s.release slot i mode n) q = face s q := by
  unfold State.release
  split
  · exact face_freeInst s slot i none q
  all_goals exact face_of_recalls (by simp) q

@[simp] theorem face_cancelItem (s : State) (p : Port) (number n : Nat) (item : RecallItem) (q : Port) :
    face (s.cancelItem p number n item) q = face s q := by
  unfold State.cancelItem
  dsimp only
  split
  · rw [face_modInst, face_setResult]
  · exact face_setResult s p n .cancelled q

@[simp] theorem face_passRelease (s : State) (p : Port) (ramp n : Nat) (item : RecallItem) (q : Port) :
    face (s.passRelease p ramp n item) q = face s q := by
  unfold State.passRelease
  (repeat' (first | split | dsimp only)) <;> simp

@[simp] theorem face_passSet (s : State) (p : Port) (ramp n : Nat) (item : RecallItem) (q : Port) :
    face (s.passSet p ramp n item) q = face s q := by
  unfold State.passSet
  split
  · split
    · rfl
    · dsimp only
      rw [face_setResult, face_setInst]
  · rfl

@[simp] theorem face_forceDrains (p : Port) (number : Nat) (q : Port) :
    ∀ (fuel : Nat) (s : State), face (State.forceDrains p number fuel s) q = face s q
  | 0, _ => rfl
  | fuel + 1, s => by
    unfold State.forceDrains
    (repeat' split) <;> try rfl
    rw [face_forceDrains p number q fuel, face_enterFading]
    refine face_modRecord ?_ q
    exact fun _ _ => rfl

@[simp] theorem face_passCharge (s : State) (p : Port) (number : Nat) (x : Nat × CreateForm × Kept) (q : Port) :
    face (s.passCharge p number x) q = face s q := by
  simp only [State.passCharge, State.waitItem]
  split
  · exact face_setUpItem _ _ _ _ q
  · rw [face_forceDrains]
    refine (face_modRecord ?_ q).trans (face_of_recalls rfl q)
    exact fun _ _ => rfl

/-! ## The passes over the items -/

@[simp] theorem face_cancelItems (s : State) (p : Port) (number : Nat) (l : List (Nat × RecallItem)) (q : Port) :
    face (l.foldl (fun s x => s.cancelItem p number x.1 x.2) s) q = face s q :=
  face_foldl (fun t x => face_cancelItem t p number x.1 x.2 q) l s

@[simp] theorem face_passReleases (s : State) (p : Port) (ramp : Nat) (l : List (Nat × RecallItem)) (q : Port) :
    face (l.foldl (fun s x => s.passRelease p ramp x.1 x.2) s) q = face s q :=
  face_foldl (fun t x => face_passRelease t p ramp x.1 x.2 q) l s

@[simp] theorem face_passSets (s : State) (p : Port) (ramp : Nat) (l : List (Nat × RecallItem)) (q : Port) :
    face (l.foldl (fun s x => s.passSet p ramp x.1 x.2) s) q = face s q :=
  face_foldl (fun t x => face_passSet t p ramp x.1 x.2 q) l s

@[simp] theorem face_passCharges (s : State) (p : Port) (number : Nat) (l : List (Nat × CreateForm × Kept)) (q : Port) :
    face (l.foldl (fun s x => s.passCharge p number x) s) q = face s q :=
  face_foldl (fun t x => face_passCharge t p number x q) l s

/-! ## The apply of a record (R147) -/

/-- The apply of one port's record keeps the face of every other. -/
theorem face_applyRecord_other (s : State) {p q : Port} (h : q ≠ p) (r : Record) :
    face (s.applyRecord p r) q = face s q := by
  simp only [State.applyRecord, face_settleTest, face_modRecord_other _ h, face_passCharges, face_passSets,
    face_passReleases, face_cancelItems]

/-- A record applied carries the frame of its apply and is no longer ARMED. -/
theorem face_applyRecord_self (s : State) (p : Port) (r : Record) :
    face (s.applyRecord p r) p = (face s p).map fun x => { x with applyFrame := some s.frame, armed := false } := by
  simp only [State.applyRecord, face_settleTest]
  have hsettling : ∀ t : State, face (t.modRecord p fun r => { r with state := .settling }) p =
      (face t p).map fun x => { x with armed := false } := fun t => by
    rw [face_modRecord_self, face, Option.map_map]
    rfl
  have hframe : ∀ (t : State) (f : FrameNo), face (t.modRecord p fun r => { r with applyFrame := some f }) p =
      (face t p).map fun x => { x with applyFrame := some f } := fun t f => by
    rw [face_modRecord_self, face, Option.map_map]
    rfl
  rw [hsettling, face_passCharges, face_passSets, face_passReleases, hframe, face_cancelItems, Option.map_map]
  simp only [keeps_cancelItems]
  rfl

/-! ## The records ARMED on a clock (R97) -/

/-- An event of a clock at the record of one port. -/
def reachRecord (k : Nat) (beat bar : Bool) (s : State) (p : Port) : State :=
  match (s.rc p).record with
  | some r =>
    if r.state = .armed ∧ r.clock = some k ∧ (if r.cond = .beat then beat else bar) = true then s.applyRecord p r else s
  | none => s

theorem applyArmed_eq (s : State) (k : Nat) (beat bar : Bool) :
    s.applyArmed k beat bar =
      reachRecord k beat bar (reachRecord k beat bar (reachRecord k beat bar s .a) .b) .c := rfl

theorem due_iff {s : State} {k : Nat} {beat bar : Bool} {p : Port} {r r' : Record} (h : (s.rc p).record = some r) :
    s.Due k beat bar p r' ↔
      r' = r ∧ r.state = .armed ∧ r.clock = some k ∧ (if r.cond = .beat then beat else bar) = true := by
  rw [State.Due, h, Option.some.injEq, eq_comm]
  constructor
  · rintro ⟨rfl, hs, hc, hb⟩
    refine ⟨rfl, hs, hc, ?_⟩
    rcases hb with ⟨hb, ht⟩ | ⟨hb, ht⟩
    · rwa [if_pos hb]
    · rwa [if_neg hb]
  · rintro ⟨rfl, hs, hc, ht⟩
    refine ⟨rfl, hs, hc, ?_⟩
    by_cases hb : r'.cond = .beat
    · rw [if_pos hb] at ht
      exact .inl ⟨hb, ht⟩
    · rw [if_neg hb] at ht
      exact .inr ⟨hb, ht⟩

/-- The record of a port is applied where its event occurs, and nothing happens elsewhere. -/
theorem reachRecord_cases (k : Nat) (beat bar : Bool) (p : Port) (s : State) :
    (∃ r, s.Due k beat bar p r ∧ reachRecord k beat bar s p = s.applyRecord p r) ∨
    ((∀ r, ¬s.Due k beat bar p r) ∧ reachRecord k beat bar s p = s) := by
  unfold reachRecord
  cases hr : (s.rc p).record with
  | none => exact .inr ⟨fun r h => (nomatch hr.symm.trans h.1), rfl⟩
  | some r =>
    dsimp only
    by_cases h : r.state = .armed ∧ r.clock = some k ∧ (if r.cond = .beat then beat else bar) = true
    · exact .inl ⟨r, (due_iff hr).mpr ⟨rfl, h⟩, if_pos h⟩
    · exact .inr ⟨fun r' h' => h ((due_iff hr).mp h').2, if_neg h⟩

theorem recordReached_reachRecord (k : Nat) (beat bar : Bool) (p : Port) (s : State) :
    RecordReached k beat bar p s (reachRecord k beat bar s p) := by
  rcases reachRecord_cases k beat bar p s with ⟨r, hr, he⟩ | ⟨hno, he⟩
  · refine ⟨fun r' hr' => ?_, fun hno => absurd hr (hno r)⟩
    rw [he, ((due_iff hr.1).mp hr').1]
  · exact ⟨fun r hr => absurd hr (hno r), fun _ => he⟩

theorem recordsReached_applyArmed (s : State) (k : Nat) (beat bar : Bool) :
    RecordsReached s (s.applyArmed k beat bar) k beat bar :=
  ⟨_, _, recordReached_reachRecord k beat bar .a s, recordReached_reachRecord k beat bar .b _,
    recordReached_reachRecord k beat bar .c _⟩

theorem face_reachRecord_other (k : Nat) (beat bar : Bool) (s : State) {p q : Port} (h : q ≠ p) :
    face (reachRecord k beat bar s p) q = face s q := by
  rcases reachRecord_cases k beat bar p s with ⟨r, _, he⟩ | ⟨_, he⟩
  · rw [he, face_applyRecord_other s h r]
  · rw [he]

theorem reachRecord_frame (k : Nat) (beat bar : Bool) (s : State) (p : Port) :
    (reachRecord k beat bar s p).frame = s.frame := by
  rcases reachRecord_cases k beat bar p s with ⟨r, _, he⟩ | ⟨_, he⟩
  · rw [he]
    simp
  · rw [he]

/-- A record whose event occurs is applied in the present frame. -/
theorem face_reachRecord_self {k : Nat} {beat bar : Bool} {s : State} {p : Port} {x : Face} (h : face s p = some x)
    (ha : x.armed = true) (hk : x.clock = some k) (hc : (if x.cond = .beat then beat else bar) = true) :
    face (reachRecord k beat bar s p) p = some { x with applyFrame := some s.frame, armed := false } := by
  obtain ⟨r, hr, rfl⟩ := Option.map_eq_some_iff.mp h
  have hdue : r.state = .armed ∧ r.clock = some k ∧ (if r.cond = .beat then beat else bar) = true :=
    ⟨of_decide_eq_true ha, hk, hc⟩
  simp only [reachRecord, hr, if_pos hdue, face_applyRecord_self, h, Option.map_some]

/-- At an event of a clock the record of a port that waits for it is applied in the present frame, whichever others are. -/
theorem face_applyArmed {k : Nat} {beat bar : Bool} {s : State} {p : Port} {x : Face} (h : face s p = some x)
    (ha : x.armed = true) (hk : x.clock = some k) (hc : (if x.cond = .beat then beat else bar) = true) :
    face (s.applyArmed k beat bar) p = some { x with applyFrame := some s.frame, armed := false } := by
  have hself : ∀ t : State, face t p = some x → t.frame = s.frame →
      face (reachRecord k beat bar t p) p = some { x with applyFrame := some s.frame, armed := false } :=
    fun t ht hf => hf ▸ face_reachRecord_self ht ha hk hc
  rw [applyArmed_eq]
  cases p with
  | a =>
    rw [face_reachRecord_other _ _ _ _ (by decide), face_reachRecord_other _ _ _ _ (by decide)]
    exact hself s h rfl
  | b =>
    rw [face_reachRecord_other _ _ _ _ (by decide)]
    exact hself _ ((face_reachRecord_other _ _ _ _ (by decide)).trans h) (reachRecord_frame ..)
  | c =>
    refine hself _ ?_ ((reachRecord_frame ..).trans (reachRecord_frame ..))
    rw [face_reachRecord_other _ _ _ _ (by decide), face_reachRecord_other _ _ _ _ (by decide), h]

/-! ## Updates of the linked effects (R80, R97) -/

theorem inst_applyUpdates (s : State) (k slot : Nat) (conds : List Cond) :
    (s.applyUpdates k conds).inst slot =
      if slot = k then (s.inst k).map fun i => i.applyUpdates s.rate (s.linkedFpb i) conds else s.inst slot :=
  inst_modInst s k slot _

/-- Updates taken in several slots are taken once in each. -/
theorem inst_applyUpdates_slots (conds : List Cond) (slot : Nat) :
    ∀ (l : List Nat) (s : State), l.Nodup → (l.foldl (fun s k => s.applyUpdates k conds) s).inst slot =
      if slot ∈ l then (s.inst slot).map fun i => i.applyUpdates s.rate (s.linkedFpb i) conds else s.inst slot
  | [], _, _ => by simp
  | k :: l, s, h => by
    obtain ⟨hk, hl⟩ := List.nodup_cons.mp h
    have hrate : (s.applyUpdates k conds).rate = s.rate := by simp [State.rate]
    have hfpb : ∀ i, (s.applyUpdates k conds).linkedFpb i = s.linkedFpb i := fun i => by
      simp [State.linkedFpb, State.clock]
    rw [List.foldl_cons, inst_applyUpdates_slots conds slot l _ hl, inst_applyUpdates, hrate]
    simp only [hfpb]
    by_cases e : slot = k
    · subst e
      simp [hk]
    · simp [e]

theorem mem_linkedSlots {s : State} {k slot : Nat} :
    slot ∈ s.linkedSlots k ↔ ∃ i, s.inst slot = some i ∧ i.link = some k := by
  simp only [State.linkedSlots, allSlots, List.mem_filter, List.mem_range]
  constructor
  · rintro ⟨_, h⟩
    split at h
    · rename_i i hi
      exact ⟨i, hi, of_decide_eq_true h⟩
    · exact nomatch h
  · rintro ⟨i, hi, hk⟩
    exact ⟨inst_lt hi, by simp [hi, hk]⟩

theorem nodup_linkedSlots (s : State) (k : Nat) : (s.linkedSlots k).Nodup := List.nodup_range.filter _

/-- The updates of the effects linked to clock `k` that its event brings, at the FPB of the clock. -/
theorem beatReached_updates {s : State} {k : Nat} {c : Clock} (hc : s.clock k = some c) (beat bar : Bool) :
    BeatReached s ((s.linkedSlots k).foldl (fun s n => s.applyUpdates n
      ((if beat then [Cond.beat] else []) ++ if bar then [Cond.bar] else [])) s) k c.fpb beat bar id := by
  intro slot
  rw [inst_applyUpdates_slots _ slot _ s (nodup_linkedSlots s k)]
  simp only [mem_linkedSlots]
  cases hi : s.inst slot with
  | none => simp
  | some i =>
    by_cases hl : i.link = some k
    · have hfpb : s.linkedFpb i = some c.fpb := by simp [State.linkedFpb, hl, hc]
      simp [hl, hfpb]
    · simp [hl]

/-- The updates of some slots change nothing but the slots. -/
theorem applyUpdates_slots_rest (conds : List Cond) (l : List Nat) (s : State) (x : Vector (Option Inst) 32)
    (y : Vector Clock 4) :
    ({ l.foldl (fun s k => s.applyUpdates k conds) s with clocks := y, insts := x } : State) =
      { s with clocks := y, insts := x } := by
  refine foldl_keeps (fun t : State => ({ t with clocks := y, insts := x } : State)) _ (fun t k => ?_) l s
  unfold State.applyUpdates State.modInst
  split <;> rfl

/-! ## BEAT_EVENT (R96, R97) -/

theorem exec_beatEvent {s : State} (h : s.running = true) (k : Nat) : exec (.beatEvent k) s = .next (s.beatEvent k) :=
  congrArg Host.Outcome.next (whileRunning_on h _)

/-- The state between the updates and the records of a beat event that is owed (log entry 72). -/
def beatUpdated (s : State) (k : Nat) (c : Clock) : State :=
  let s := s.setClock k { c with beatOwed := false, barOwed := false }
  (s.linkedSlots k).foldl (fun s n => s.applyUpdates n
    ((if true then [Cond.beat] else []) ++ if c.barOwed then [Cond.bar] else [])) s

theorem beatEvent_owed {s : State} {k : Nat} {c : Clock} (hc : s.clock k = some c) (ho : c.beatOwed = true) :
    s.beatEvent k = (beatUpdated s k c).applyArmed k true c.barOwed := by
  unfold State.beatEvent
  rw [hc]
  exact if_pos ho

theorem beatEvent_not_owed {s : State} {k : Nat} {c : Clock} (hc : s.clock k = some c) (ho : c.beatOwed = false) :
    s.beatEvent k = s := by
  unfold State.beatEvent
  rw [hc]
  exact if_neg (by simp [ho])

theorem clock_beatUpdated {s : State} {k : Nat} {c : Clock} (hc : s.clock k = some c) (j : Nat) :
    (beatUpdated s k c).clock j = if j = k then some { c with beatOwed := false, barOwed := false } else s.clock j := by
  rw [← clock_setClock s k j _ (clock_lt hc)]
  simp [beatUpdated, State.clock]

theorem beatUpdated_rest (s : State) (k : Nat) (c : Clock) :
    ({ beatUpdated s k c with clocks := s.clocks, insts := s.insts } : State) = s :=
  applyUpdates_slots_rest _ _ _ _ _

theorem beatReached_beatUpdated {s : State} {k : Nat} {c : Clock} (hc : s.clock k = some c) :
    BeatReached s (beatUpdated s k c) k c.fpb true c.barOwed id := by
  have hset : (s.setClock k { c with beatOwed := false, barOwed := false }).clock k =
      some { c with beatOwed := false, barOwed := false } := by
    rw [clock_setClock s k k _ (clock_lt hc), if_pos rfl]
  exact beatReached_updates hset true c.barOwed

/-- A record ARMED on the clock whose condition the event brings is applied in the present frame. -/
theorem beatEvent_applies {s : State} {k : Nat} {c : Clock} {p : Port} {r : Record} (hc : s.clock k = some c)
    (ho : c.beatOwed = true) (hr : (s.rc p).record = some r) (ha : r.state = .armed) (hk : r.clock = some k)
    (hcond : r.cond = .beat ∨ (r.cond = .bar ∧ c.barOwed = true)) :
    ∃ u, ((s.beatEvent k).rc p).record = some u ∧ u.number = r.number ∧ u.applyFrame = some s.frame ∧
      u.state ≠ .armed := by
  have hface : face (beatUpdated s k c) p = some (faceOf r) := by
    rw [face_of_recalls (s := s) (by simp [beatUpdated]), face, hr]
    rfl
  have hdue : (if (faceOf r).cond = .beat then true else c.barOwed) = true := by
    rcases hcond with h | ⟨h, hb⟩
    · exact if_pos h
    · simp [hb]
  have hframe : (beatUpdated s k c).frame = s.frame := by simp [beatUpdated]
  have happlied := face_applyArmed hface (decide_eq_true ha) hk hdue
  rw [← beatEvent_owed hc ho, hframe] at happlied
  obtain ⟨u, hu, hface'⟩ := Option.map_eq_some_iff.mp happlied
  exact ⟨u, hu, congrArg Face.number hface', congrArg Face.applyFrame hface',
    of_decide_eq_false (congrArg Face.armed hface')⟩

/-! ## LFO_WRAP (R40, R41, R80) -/

section
variable (r : Rate) (i : Inst)

@[simp] theorem updates_modParam (n : Nat) (f : Param → Param) : (i.modParam n f).updates = i.updates := rfl

@[simp] theorem updates_dipSwitch : (i.dipSwitch r).updates = i.updates := by
  unfold Inst.dipSwitch
  split
  · exact foldl_keeps Inst.updates (fun j (c : Nat × Int) => j.modParam c.1 fun p => p.jump { m := c.2, e := 0 })
      (fun _ _ => rfl) _ i
  · rfl

@[simp] theorem updates_dipEnd : (i.dipEnd r).updates = i.updates := by
  unfold Inst.dipEnd
  split <;> rfl

@[simp] theorem updates_startDelay (n : Nat) (target : Int) (frames : Nat) :
    (i.startDelay r n target frames).updates = i.updates := by
  unfold Inst.startDelay
  dsimp only
  split <;> rfl

@[simp] theorem updates_crossfadeEnd (n : Nat) : (i.crossfadeEnd r n).updates = i.updates := by
  unfold Inst.crossfadeEnd
  (repeat' (first | split | dsimp only)) <;> simp

@[simp] theorem updates_changeDelay (n : Nat) (target : Int) (frames : Nat) (retarget : Bool) :
    (i.changeDelay r n target frames retarget).1.updates = i.updates := by
  unfold Inst.changeDelay
  (repeat' (first | split | dsimp only)) <;> simp

@[simp] theorem updates_changeDiscrete (n : Nat) (x : Int) : (i.changeDiscrete r n x).updates = i.updates := by
  unfold Inst.changeDiscrete
  (repeat' (first | split | dsimp only)) <;> simp

/-- A change of a parameter leaves the pending list alone. -/
@[simp] theorem updates_startChange (fpb : Option Nat) (n : Nat) (v : Accepted) (frames : Nat) :
    (i.startChange r fpb n v frames).1.updates = i.updates := by
  unfold Inst.startChange
  (repeat' (first | split | dsimp only)) <;> simp [Inst.standDelay]

/-- The updates that take effect leave the pending list, and no other does. -/
theorem updates_applyUpdates (fpb : Option Nat) (conds : List Cond) :
    (i.applyUpdates r fpb conds).updates = i.updates.filter fun u => decide (u.cond ∉ conds) :=
  foldl_keeps Inst.updates (fun j (u : Update) => (j.startChange r fpb u.param u.value (r.ms u.ramp)).1)
    (fun j u => updates_startChange r j fpb u.param u.value (r.ms u.ramp)) _ _

end

/-- The formed phase of an oscillator wraps only where its rate follows a division of a clock. -/
theorem formedWrap_iff (clock : Option Clock) (i : Inst) (o : Osc) :
    formedWrap clock i o = true ↔ ∃ code c, lfoDivision i = some code ∧ clock = some c ∧ (o.moved = true ∨
      (syncedPhase c.fpb c.phase c.beat (divisionBeats code).1 (divisionBeats code).2).toNat < o.last.toNat) := by
  unfold formedWrap phaseNow
  rcases hd : lfoDivision i with _ | code
  · simp
  · cases clock with
    | none => simp
    | some c => simp

/-- The wraps of the first oscillator that are still to be taken. -/
theorem lfoWrapped_iff (clock : Option Clock) {i : Inst} {o : Osc} {rest : List Osc} (h : i.oscs = o :: rest) :
    lfoWrapped clock i = true ↔ o.wrapped = true ∨ (o.acted = false ∧ ∃ code c, lfoDivision i = some code ∧
      clock = some c ∧ (o.moved = true ∨
        (syncedPhase c.fpb c.phase c.beat (divisionBeats code).1 (divisionBeats code).2).toNat < o.last.toNat)) := by
  simp only [lfoWrapped, h, Bool.or_eq_true, Bool.and_eq_true, Bool.not_eq_true', formedWrap_iff]

/-- Taking the wraps does not change which formed phases wrap in the frame. -/
theorem formedWrap_clearWrap (clock : Option Clock) (i : Inst) (o : Osc) (wrapped acted : Bool) :
    formedWrap clock (clearWrap clock i) { o with wrapped := wrapped, acted := acted } = formedWrap clock i o := rfl

/-- A wrap is taken once: when the wraps are cleared none is left. -/
theorem lfoWrapped_clearWrap (clock : Option Clock) (i : Inst) : lfoWrapped clock (clearWrap clock i) = false := by
  cases h : i.oscs with
  | nil => simp [lfoWrapped, clearWrap, h]
  | cons o rest =>
    have hoscs : (clearWrap clock i).oscs = (o :: rest).map fun o =>
        { o with wrapped := false, acted := o.acted || formedWrap clock i o } := by
      rw [← h]
      rfl
    simp only [lfoWrapped, hoscs, List.map_cons, Bool.false_or, formedWrap_clearWrap]
    cases o.acted <;> cases formedWrap clock i o <;> rfl

theorem turnBack_rest (i : Inst) : { i.turnBack with oscs := i.oscs } = i := by
  unfold Inst.turnBack
  split <;> rfl

theorem oscs_turnBack {i : Inst} (h : i.state ∈ [.running, .held, .draining, .fading]) (hd : lfoDivision i ≠ none) :
    i.turnBack.oscs = i.oscs.map fun o => { o with moved := true } := by
  unfold Inst.turnBack
  rw [if_pos (by rw [(runs_iff i).mpr h, Bool.true_and]; exact Option.isSome_iff_ne_none.mpr hd)]

theorem turnBack_of_not {i : Inst} (h : i.state ∉ [.running, .held, .draining, .fading] ∨ lfoDivision i = none) :
    i.turnBack = i := by
  unfold Inst.turnBack
  refine if_neg fun hb => ?_
  obtain ⟨hr, hs⟩ := Bool.and_eq_true_iff.mp hb
  exact h.elim (fun hn => hn ((runs_iff i).mp hr)) fun hn => Option.isSome_iff_ne_none.mp hs hn

theorem exec_lfoWrap {s : State} (h : s.running = true) (slot : Nat) :
    exec (.lfoWrap slot) s = .next (s.modInst slot fun i =>
      if runs i && lfoWrapped (s.linkedClock i) i then
        (clearWrap (s.linkedClock i) i).applyUpdates s.rate (s.linkedFpb i) [.lfoZero]
      else i) :=
  congrArg Host.Outcome.next (whileRunning_on h _)

/-! ## The statement -/

/-- Settles O34: an owed beat event by its two parts, the wrap of an oscillator as one change of its slot, and the updates
by `applyUpdates_taken`. -/
theorem beatsAndWrapsTakeUpdates : Obligations.BeatsAndWrapsTakeUpdates := by
  intro s hr
  refine ⟨fun k c hc ho => ?_, fun k c p r hc ho hp ha hk hcond => ?_, fun k c hc ho => ?_,
    fun slot i hi hs => ⟨fun hw => ?_, fun hw => ?_⟩,
    fun clock i => ⟨fun o rest ho => lfoWrapped_iff clock ho, turnBack_rest i, oscs_turnBack, turnBack_of_not,
      lfoWrapped_clearWrap clock i, rfl, by simp [clearWrap]⟩,
    fun r fpb i conds _ hp hd => applyUpdates_taken ⟨hp, hd⟩ fpb conds, fun slot i hi hs => ?_⟩
  · refine ⟨_, beatUpdated s k c, (exec_beatEvent hr k).trans (congrArg _ (beatEvent_owed hc ho)),
      fun j hj => ?_, ?_, beatUpdated_rest s k c, beatReached_beatUpdated hc, recordsReached_applyArmed _ k true c.barOwed⟩
    · rw [clock_beatUpdated hc, if_neg hj]
    · rw [clock_beatUpdated hc, if_pos rfl]
  · obtain ⟨u, hu⟩ := beatEvent_applies hc ho hp ha hk hcond
    exact ⟨_, u, exec_beatEvent hr k, hu⟩
  · rw [exec_beatEvent hr, beatEvent_not_owed hc ho]
  · have hdue : (runs i && lfoWrapped (s.linkedClock i) i) = true := by rw [(runs_iff i).mpr hs, hw]; rfl
    obtain ⟨t, ht, hslot⟩ := event_becomes (exec_lfoWrap hr slot) hi (if_pos hdue)
    refine ⟨t, _, ht, hslot, rfl, ?_⟩
    rw [updates_applyUpdates]
    simp only [List.mem_singleton]
    rfl
  · exact event_unchanged (exec_lfoWrap hr slot) hi (if_neg (by simp [hw]))
  · have hruns : runs i = false := by
      rw [← Bool.not_eq_true, runs_iff]
      rcases hs with h | h <;> simp [h]
    exact event_unchanged (exec_lfoWrap hr slot) hi (if_neg (by simp [hruns]))

end Sys2Proof.Signal
end

section
/-! The dip of a DISCRETE parameter (R82 to R84): a SET of one as it is accepted, the switch after a fall, the end after a
rise, and the statement on them (O27). -/
namespace Sys2Proof.Signal
open Sys2Proof.Machine

/-! ## The switch and the end of a dip (R82, R84) -/

theorem exec_dipSwitch {s : State} (h : s.running = true) (slot : Nat) :
    exec (.dipSwitch slot) s = .next (s.modInst slot (Inst.dipSwitch s.rate)) :=
  congrArg Host.Outcome.next (whileRunning_on h _)

theorem exec_dipEnd {s : State} (h : s.running = true) (slot : Nat) :
    exec (.dipEnd slot) s = .next (s.modInst slot (Inst.dipEnd s.rate)) :=
  congrArg Host.Outcome.next (whileRunning_on h _)

/-- The parameters of a set of a dip, each set at once to its value there. -/
def takeSet (i : Inst) (l : List (Nat × Int)) : Inst :=
  l.foldl (fun j c => j.modParam c.1 fun p => p.jump { m := c.2, e := 0 }) i

theorem takeSet_rest (i : Inst) (l : List (Nat × Int)) : { takeSet i l with params := i.params } = i :=
  foldl_keeps (fun j : Inst => ({ j with params := i.params } : Inst))
    (fun j (c : Nat × Int) => j.modParam c.1 fun p => p.jump { m := c.2, e := 0 }) (fun _ _ => rfl) l i

theorem takeSet_cons (i : Inst) (c : Nat × Int) (l : List (Nat × Int)) :
    takeSet i (c :: l) = takeSet (i.modParam c.1 fun p => p.jump { m := c.2, e := 0 }) l := rfl

theorem jump_num (v : Val) (p : Param) : (p.jump v).num = p.num := rfl

theorem param_takeSet_other {k : Nat} :
    ∀ {l : List (Nat × Int)} (i : Inst), (∀ c, c ∈ l → c.1 ≠ k) → (takeSet i l).param k = i.param k
  | [], _, _ => rfl
  | c :: l, i, h => by
    have hc : k ≠ c.1 := (h c List.mem_cons_self).symm
    have hrest : ∀ d, d ∈ l → d.1 ≠ k := fun d hd => h d (List.mem_cons_of_mem _ hd)
    rw [takeSet_cons, param_takeSet_other _ hrest, param_modParam i c.1 k (jump_num _), if_neg hc]

theorem param_takeSet_self {c : Nat × Int} {p : Param} :
    ∀ {l : List (Nat × Int)} {i : Inst}, (l.map Prod.fst).Nodup → c ∈ l → i.param c.1 = some p →
      (takeSet i l).param c.1 = some (p.jump { m := c.2, e := 0 })
  | [], _, _, hc, _ => absurd hc List.not_mem_nil
  | d :: l, i, hn, hc, hp => by
    obtain ⟨hd, hl⟩ := List.nodup_cons.mp hn
    have hmod := param_modParam i d.1 c.1 (jump_num { m := d.2, e := 0 })
    rw [takeSet_cons]
    rcases List.mem_cons.mp hc with rfl | hc
    · have hother : ∀ e, e ∈ l → e.1 ≠ c.1 := fun e he heq => hd (heq ▸ List.mem_map_of_mem he)
      rw [param_takeSet_other _ hother, hmod, if_pos rfl, hp, Option.map_some]
    · have hne : c.1 ≠ d.1 := fun heq => hd (heq ▸ List.mem_map_of_mem hc)
      exact param_takeSet_self hl hc (by rw [hmod, if_neg hne, hp])

section
variable {r : Rate} {i : Inst}

/-- Once the last frame of a fall has run, the switch set is taken and the rise begins. -/
theorem dipSwitch_of_ran (hf : i.dip.phase = .fall) (hd : r.pick 240 480 < i.dip.pos) :
    i.dipSwitch r =
      { takeSet i i.dip.switch with dip := { phase := .rise, pos := 1, switch := [], next := i.dip.next } } :=
  if_pos ⟨hf, hd⟩

theorem dipSwitch_of_runs (h : i.dip.phase ≠ .fall ∨ i.dip.pos ≤ r.pick 240 480) : i.dipSwitch r = i :=
  if_neg fun ⟨hf, hd⟩ => h.elim (· hf) (Nat.not_le.mpr hd)

theorem dipEnd_of_ran (hf : i.dip.phase = .rise) (hd : r.pick 240 480 < i.dip.pos) :
    i.dipEnd r = { i with dip :=
      if i.dip.next.filter (fun c => decide (i.value c.1 ≠ c.2)) = [] then
        { phase := .none, pos := 0, switch := [], next := [] }
      else { phase := .fall, pos := 1, switch := i.dip.next.filter fun c => decide (i.value c.1 ≠ c.2), next := [] } } :=
  if_pos ⟨hf, hd⟩

theorem dipEnd_of_runs (h : i.dip.phase ≠ .rise ∨ i.dip.pos ≤ r.pick 240 480) : i.dipEnd r = i :=
  if_neg fun ⟨hf, hd⟩ => h.elim (· hf) (Nat.not_le.mpr hd)

end

/-! ## A SET of a DISCRETE parameter (R74, R78, R83) -/

/-- A change of a DISCRETE parameter while no dip waits for its end moves the dip as R83 and R84 say, and nothing else. -/
theorem changeDiscrete_dip {r : Rate} {i : Inst} (hp : i.state ≠ .priming) (hd : i.dip.pos ≤ r.pick 240 480) (n : Nat)
    (x : Int) :
    { i.changeDiscrete r n x with dip := i.dip } = i ∧ i.DipTakes (i.changeDiscrete r n x) n x := by
  unfold Inst.changeDiscrete
  rw [if_neg hp, dipSwitch_of_runs (.inr hd), dipEnd_of_runs (.inr hd)]
  dsimp only
  cases h : i.dip.phase with
  | none =>
    refine ⟨by dsimp only; split <;> rfl, fun _ => by dsimp only; split <;> rfl, fun h' => ?_, fun h' => ?_⟩
    all_goals exact nomatch h.symm.trans h'
  | fall =>
    exact ⟨rfl, fun h' => (nomatch h.symm.trans h'), fun _ => ⟨by dsimp only; rw [← h], putIn_putValue _ n x⟩,
      fun h' => (nomatch h.symm.trans h')⟩
  | rise =>
    exact ⟨rfl, fun h' => (nomatch h.symm.trans h'), fun h' => (nomatch h.symm.trans h'),
      fun _ => ⟨by dsimp only; rw [← h], putIn_putValue _ n x⟩⟩

/-- In PRIMING a change of a DISCRETE parameter sets it at once, and nothing else. -/
theorem changeDiscrete_priming {i : Inst} (hp : i.state = .priming) (r : Rate) (n : Nat) (x : Int) {p : Param}
    (hn : i.param n = some p) :
    { i.changeDiscrete r n x with params := i.params } = i ∧
    (∀ k, k ≠ n → (i.changeDiscrete r n x).param k = i.param k) ∧
    ∃ q, (i.changeDiscrete r n x).param n = some q ∧ p.Jumps q { m := x, e := 0 } := by
  have hjump : i.changeDiscrete r n x = i.modParam n fun p => p.jump { m := x, e := 0 } := if_pos hp
  rw [hjump]
  refine ⟨rfl, (onlyParam_modParam i n (jump_num _)).2, _, ?_, rfl⟩
  rw [param_modParam i n n (jump_num _), if_pos rfl, hn]
  rfl

/-- A parameter that a kind has is one of the 32 (R50). -/
theorem param_le_of_paramSpec {r : Rate} {c : Choice} {n : Nat} {sp : PSpec} (h : paramSpec r c n = some sp) : n ≤ 31 := by
  refine Nat.le_of_not_lt fun hn => ?_
  rw [paramSpec, if_neg (by omega), if_neg (by omega), if_pos hn] at h
  exact nomatch h

/-- A number that is accepted was given as a number. -/
theorem free_of_acceptValue {r : Rate} {sp : PSpec} {fpb : Option Nat} {v : ValueForm} {x : Int} {names : List ClampName}
    (h : acceptValue r sp fpb v = some (.free x, names)) : ∃ y, v = .free y := by
  cases v with
  | free y => exact ⟨y, rfl⟩
  | gain m e => cases hf : sp.form <;> simp [acceptValue, hf] at h
  | division code => cases hf : sp.form <;> simp [acceptValue, hf, PForm.syncs] at h
  | unknown => cases hf : sp.form <;> simp [acceptValue, hf] at h

section
variable {s : State} {slot : Nat} {i : Inst} {f : SetForm} {c : Cond} {sp : PSpec} {v : Accepted} {names : List ClampName}

/-- A SET that passes the checks of R73 is accepted. -/
theorem setRequest_accepted {h : Hdr} (hi : s.inst slot = some i) (ht : TakesSet h i) (hc : f.cond = .is c)
    (hroom : HasRoom i c f.param) (hform : valueFormOk f.param f.value = true)
    (hs : paramSpec s.rate i.choice f.param = some sp)
    (ha : acceptValue s.rate sp (s.linkedFpb i) f.value = some (v, names)) :
    s.setRequest h.port slot f = s.acceptSet slot i f sp c v names := by
  obtain ⟨hright, hstate⟩ := ht
  have hargs : ¬(31 < slot ∨ 31 < f.param ∨ valueFormOk f.param f.value = false) := by
    have hslot := inst_lt hi
    have hparam := param_le_of_paramSpec hs
    simp [hform]
    omega
  have howner : ¬(i.owner ≠ h.port ∧ i.shared = false) := by
    rintro ⟨hne, hsh⟩
    rcases hright with he | he
    · exact hne he
    · exact nomatch hsh.symm.trans he
  have hfull : ¬(c ≠ .now ∧ 8 ≤ i.updates.length ∧ i.updates.all (fun u => decide (u.param ≠ f.param)) = true) := by
    rintro ⟨hne, hlen, hall⟩
    rcases hroom with he | he | ⟨u, hu, hp⟩
    · exact hne he
    · omega
    · exact of_decide_eq_true (List.all_eq_true.mp hall u hu) hp
  have hin : i.state ∈ [.priming, .running, .held] := by simpa using hstate
  unfold State.setRequest
  simp only [hc, hi]
  rw [if_neg hargs, if_neg howner, if_neg (not_not_intro hin), State.checkSet]
  simp only [hs, ha]
  rw [if_neg hfull]

theorem actsNow_iff : ActsNow i c ↔ c = .now ∨ State.cannotWait i c = true := by
  cases c <;> simp [ActsNow, State.cannotWait]

/-- An accepted SET of a DISCRETE parameter that acts at once: its ramp is neither used nor reported (R74). -/
theorem acceptSet_discrete (hs : paramSpec s.rate i.choice f.param = some sp) (hd : sp.discrete = true)
    (hnow : ActsNow i c) (x : Int) :
    s.acceptSet slot i f sp c (.free x) names =
      (s.setInst slot ((i.dropUpdate f.param).changeDiscrete s.rate f.param x),
        ansClamped (names ++ condNames c) (.set (.free x) none (names ++ condNames c))) := by
  have hspec : paramSpec s.rate (i.dropUpdate f.param).choice f.param = some sp := hs
  have hnames : (if c = .now then names else names ++ [.condition]) = names ++ condNames c := by
    unfold condNames
    split <;> simp
  unfold State.acceptSet
  simp only [if_pos (actsNow_iff.mp hnow), Inst.startChange, hspec, hd, if_true, State.rampUnused, Bool.true_or, List.append_nil,
    hnames, State.setValue, Bool.false_eq_true, if_false]

/-- A taken request that changes the record in one slot. -/
theorem onlySlot_request {h : Hdr} {code : Byte} {act : State → State × Ans} {j : Inst} {a : Ans}
    (ht : s.takes h code = true) (hi : s.inst slot = some i)
    (hact : act (s.dequeue h.port) = ((s.dequeue h.port).setInst slot j, a)) :
    OnlySlot h s (s.request code h act) slot ∧ (s.request code h act).inst slot = some j ∧
    (s.request code h act).Answered h code a.status a.reason a.body := by
  obtain ⟨hans, hports, _⟩ := request_spec (act := act) ht (by rw [hact]; rfl)
  rw [request_taken ht, hact] at *
  have hinst : ∀ k, (((s.dequeue h.port).setInst slot j).answer h code a).inst k = if k = slot then some j else s.inst k :=
    fun k => inst_setInst (s.dequeue h.port) slot k j (inst_lt hi)
  exact ⟨⟨hports, rfl, fun k hk => by rw [hinst, if_neg hk]⟩, by rw [hinst, if_pos rfl], hans⟩

end

/-! ## The statement -/

/-- Settles O27: the SET as one change of the slot's record by `changeDiscrete`, the switch by the set it takes, and the end
as the one change of the dip. -/
theorem discreteParametersSwitchUnderADip : Obligations.DiscreteParametersSwitchUnderADip := by
  intro s slot i hi
  refine ⟨fun h f c sp p x names htakes hset hc hnow hroom hs hd hn hp ha hpos => ?_, fun hr hf hran hnd => ?_,
    fun hr hf hran => ?_, fun hr h => ?_, fun hr h => ?_⟩
  · obtain ⟨y, hy⟩ := free_of_acceptValue ha
    have hform : valueFormOk f.param f.value = true := by rw [hy]; exact decide_eq_true hn
    have hact : (s.dequeue h.port).setRequest h.port slot f = _ :=
      (setRequest_accepted (s := s.dequeue h.port) hi hset hc hroom hform hs ha).trans
        (acceptSet_discrete (s := s.dequeue h.port) hs hd hnow x)
    obtain ⟨honly, hinst, hans⟩ := onlySlot_request (act := fun s => s.setRequest h.port slot f) htakes hi hact
    refine ⟨_, _, rfl, honly, hans, hinst, updates_changeDiscrete .., fun hprim => ?_, fun hprim => ?_⟩
    · obtain ⟨hrest, hothers, hjumps⟩ :=
        changeDiscrete_priming (i := i.dropUpdate f.param) hprim s.rate f.param x hp
      exact ⟨⟨congrArg (fun j : Inst => { j with updates := i.updates }) hrest, hothers⟩, hjumps⟩
    · obtain ⟨hrest, hdip⟩ := changeDiscrete_dip (i := i.dropUpdate f.param) hprim hpos f.param x
      exact ⟨congrArg (fun j : Inst => { j with updates := i.updates }) hrest, hdip⟩
  · obtain ⟨t, ht, hslot⟩ := event_becomes (exec_dipSwitch hr slot) hi (dipSwitch_of_ran hf hran)
    refine ⟨t, _, ht, hslot, rfl, ?_, fun c p hc hp => ⟨_, param_takeSet_self hnd hc hp, rfl⟩,
      fun k hk => param_takeSet_other i hk⟩
    exact congrArg (fun j : Inst => ({ j with dip := i.dip } : Inst)) (takeSet_rest i i.dip.switch)
  · obtain ⟨t, ht, hslot⟩ := event_becomes (exec_dipEnd hr slot) hi (dipEnd_of_ran hf hran)
    exact ⟨t, _, _, ht, hslot, rfl, rfl, rfl⟩
  · exact event_unchanged (exec_dipSwitch hr slot) hi (dipSwitch_of_runs h)
  · exact event_unchanged (exec_dipEnd hr slot) hi (dipEnd_of_runs h)

end Sys2Proof.Signal
end

section
/-! What a change of a clock does to the effects linked to it and tells of itself (R80, R88, R97, R101, R104): one lemma for
each operation that TEMPO_SET, METER and the taps are made of. -/
namespace Sys2Proof.Signal
open Sys2Proof.Machine

/-! ## Retargets change the parameters alone (R88) -/

/-- The record `j` is `i` but for its parameters. -/
def ParamsOnly (i j : Inst) : Prop := { j with params := i.params } = i

/-- Whatever the parameters are, the rest is as it was. -/
theorem ParamsOnly.eq {i j : Inst} (h : ParamsOnly i j) (l : List Param) :
    ({ j with params := l } : Inst) = { i with params := l } :=
  (congrArg (fun k : Inst => ({ k with params := l } : Inst)) h :)

theorem ParamsOnly.trans {i j k : Inst} (h : ParamsOnly i j) (h' : ParamsOnly j k) : ParamsOnly i k :=
  (h'.eq i.params).trans h

section
variable (r : Rate) (i : Inst)

theorem paramsOnly_modParam (n : Nat) (f : Param → Param) : ParamsOnly i (i.modParam n f) := rfl

theorem paramsOnly_startDelay (n : Nat) (target : Int) (frames : Nat) :
    ParamsOnly i (i.startDelay r n target frames) := by
  unfold Inst.startDelay
  dsimp only
  split <;> exact paramsOnly_modParam i n _

theorem paramsOnly_crossfadeEnd (n : Nat) : ParamsOnly i (i.crossfadeEnd r n) := by
  unfold Inst.crossfadeEnd
  split
  · split
    · dsimp only
      split
      · exact (paramsOnly_modParam i n _).trans (paramsOnly_startDelay ..)
      · exact paramsOnly_modParam i n _
    · rfl
  · rfl

theorem paramsOnly_changeDelay (n : Nat) (target : Int) (frames : Nat) (retarget : Bool) :
    ParamsOnly i (i.changeDelay r n target frames retarget).1 := by
  unfold Inst.changeDelay
  split
  · exact paramsOnly_modParam i n _
  · dsimp only
    split
    · exact (paramsOnly_crossfadeEnd r i n).trans (paramsOnly_modParam _ n _)
    · exact (paramsOnly_crossfadeEnd r i n).trans (paramsOnly_startDelay ..)

theorem paramsOnly_retarget (fpb : Nat) : ParamsOnly i (i.retarget r fpb) := by
  refine foldl_keeps (fun j : Inst => ({ j with params := i.params } : Inst)) _ (fun j p => ?_) i.params i
  split
  · split
    · exact (paramsOnly_changeDelay ..).eq i.params
    · rfl
  · rfl

theorem link_retarget (fpb : Nat) : (i.retarget r fpb).link = i.link := (congrArg Inst.link (paramsOnly_retarget r i fpb) :)

theorem link_turnBack : i.turnBack.link = i.link := (congrArg Inst.link (turnBack_rest i) :)

end

/-! ## One change of several slots -/

theorem inst_foldl_modInst (g : Inst → Inst) (slot : Nat) :
    ∀ (l : List Nat) (s : State), l.Nodup →
      (l.foldl (fun s n => s.modInst n g) s).inst slot = if slot ∈ l then (s.inst slot).map g else s.inst slot
  | [], _, _ => by simp
  | k :: l, s, h => by
    obtain ⟨hk, hl⟩ := List.nodup_cons.mp h
    rw [List.foldl_cons, inst_foldl_modInst g slot l _ hl, inst_modInst]
    by_cases e : slot = k
    · subst e
      simp [hk]
    · simp [e]

/-- A change by the rate strap, which no slot changes, is that by the rate of the first state. -/
theorem foldl_modInst_rate (g : Rate → Inst → Inst) :
    ∀ (l : List Nat) (s : State), l.foldl (fun s n => s.modInst n (g s.rate)) s =
      l.foldl (fun t n => t.modInst n (g s.rate)) s
  | [], _ => rfl
  | k :: l, s => by
    have hrate : (s.modInst k (g s.rate)).rate = s.rate := by simp [State.rate]
    rw [List.foldl_cons, foldl_modInst_rate g l, hrate]
    rfl

/-- A change of the slots linked to a clock changes just the records linked to it. -/
theorem inst_linkedSlots (s : State) (k : Nat) (g : Inst → Inst) (slot : Nat) :
    ((s.linkedSlots k).foldl (fun s n => s.modInst n g) s).inst slot =
      (s.inst slot).map fun i => if i.link = some k then g i else i := by
  rw [inst_foldl_modInst g slot _ s (nodup_linkedSlots s k)]
  simp only [mem_linkedSlots]
  cases hi : s.inst slot with
  | none => simp
  | some i => by_cases hl : i.link = some k <;> simp [hl]

/-! ## A clock moved, and what sees it -/

/-- From `s` to `u` clock `k` has become `d` and each record linked to it has been changed by `f`, which keeps its link;
nothing else but notices has changed. -/
structure ClockMoves (s u : State) (k : Nat) (d : Clock) (f : Inst → Inst) : Prop where
  clock : u.clock k = some d
  others : OtherClocks s u k
  rest : { u with clocks := s.clocks, insts := s.insts, notices := s.notices } = s
  inst : ∀ slot, u.inst slot = (s.inst slot).map fun i => if i.link = some k then f i else i
  link : ∀ i, (f i).link = i.link

theorem clockMoves_setClock {s : State} {k : Nat} (h : k < 4) (d : Clock) : ClockMoves s (s.setClock k d) k d id where
  clock := by rw [clock_setClock s k k d h, if_pos rfl]
  others j hj := by rw [clock_setClock s k j d h, if_neg hj]
  rest := rfl
  inst slot := by simp
  link _ := rfl

section
variable {s u : State} {k : Nat} {d : Clock} {f g : Inst → Inst}

theorem ClockMoves.rate (h : ClockMoves s u k d f) : u.rate = s.rate := (congrArg State.rate h.rest :)

theorem ClockMoves.ports (h : ClockMoves s u k d f) : u.ports = s.ports := (congrArg State.ports h.rest :)

theorem ClockMoves.frame (h : ClockMoves s u k d f) : u.frame = s.frame := (congrArg State.frame h.rest :)

/-- A change of the linked records after others. -/
theorem ClockMoves.linked (h : ClockMoves s u k d f) (hg : ∀ i, (g i).link = i.link) :
    ClockMoves s ((u.linkedSlots k).foldl (fun s n => s.modInst n g) u) k d fun i => g (f i) := by
  have hclock : ∀ j, ((u.linkedSlots k).foldl (fun s n => s.modInst n g) u).clock j = u.clock j := fun j =>
    foldl_keeps (fun t : State => t.clock j) (fun s n => s.modInst n g) (fun t n => by simp [State.clock]) _ u
  refine ⟨(hclock k).trans h.clock, fun j hj => (hclock j).trans (h.others j hj), ?_, fun slot => ?_,
    fun i => (hg _).trans (h.link i)⟩
  · refine (foldl_keeps (fun t : State =>
      ({ t with clocks := s.clocks, insts := s.insts, notices := s.notices } : State)) (fun s n => s.modInst n g)
      (fun t n => ?_) _ u).trans h.rest
    unfold State.modInst
    split <;> rfl
  · rw [inst_linkedSlots, h.inst]
    cases s.inst slot with
    | none => rfl
    | some i => by_cases hl : i.link = some k <;> simp [hl, h.link]

/-- A tap or a METER in place: the synced oscillators see a position that has moved backward (R41, R101). -/
theorem clockMoves_moveClock (h : k < 4) (c d : Clock) : ClockMoves s (s.moveClock k c d) k d (SeesMove c d) := by
  unfold State.moveClock
  by_cases hb : d.beat < c.beat ∨ (d.beat = c.beat ∧ 0 < c.phase)
  · have hsees : SeesMove c d = fun i => Inst.turnBack (id i) := funext fun i => if_pos hb
    rw [hsees]
    simp only [State.movesBack, hb, decide_true, if_true]
    exact (clockMoves_setClock h d).linked link_turnBack
  · have hsees : SeesMove c d = id := funext fun i => if_neg hb
    rw [hsees]
    simp only [State.movesBack, hb, decide_false, Bool.false_eq_true, if_false]
    exact clockMoves_setClock h d

/-- The retarget of the linked effects to the FPB of the clock as moved (R88). -/
theorem ClockMoves.retarget (h : ClockMoves s u k d f) :
    ClockMoves s (u.retargetClock k) k d fun i => (f i).retarget s.rate d.fpb := by
  unfold State.retargetClock
  rw [h.clock, ← h.rate]
  dsimp only
  rw [foldl_modInst_rate fun r => Inst.retarget r d.fpb]
  exact h.linked fun i => link_retarget u.rate i d.fpb

/-! ## TEMPO notices (R104) -/

/-- One class raised at the ports of a list that a test names and whose link is UP. -/
theorem np_foldl_raiseUp (test : Port → Prop) [DecidablePred test] (c : NoticeClass) (x : Detail) (q : Port) :
    ∀ (l : List Port) (s : State), l.Nodup →
      (l.foldl (fun s p => if test p then s.raiseUp p c x else s) s).np q =
        if q ∈ l ∧ test q ∧ s.linkUp q = true then (s.np q).raise c { detail := x, frame := s.frame } else s.np q
  | [], _, _ => by simp
  | p :: l, s, h => by
    obtain ⟨hp, hl⟩ := List.nodup_cons.mp h
    rw [List.foldl_cons, np_foldl_raiseUp test c x q l _ hl]
    by_cases ht : test p
    · have hup : (s.raiseUp p c x).linkUp q = s.linkUp q := by simp [State.linkUp, State.io]
      have hframe : (s.raiseUp p c x).frame = s.frame := by simp
      rw [if_pos ht, hup, hframe, np_raiseUp]
      by_cases e : q = p
      · subst e
        simp [hp, ht]
      · simp [e]
    · rw [if_neg ht]
      by_cases e : q = p
      · subst e
        simp [hp, ht]
      · simp [e]

theorem tempoTold_tellTempo {c : Clock} (hc : s.clock k = some c) (cause : TempoCause) (source : TempoSource) :
    TempoTold s (s.tellTempo k cause source) k c cause source := by
  intro q
  unfold State.tellTempo
  rw [hc]
  dsimp only
  rw [np_foldl_raiseUp (fun q => 1 ≤ c.linked.get q ∧ source ≠ .port q) _ _ q allPorts s (by decide)]
  simp only [mem_allPorts, true_and, and_assoc]

theorem tellTempo_rest (s : State) (k : Nat) (cause : TempoCause) (source : TempoSource) :
    ({ s.tellTempo k cause source with notices := s.notices } : State) = s := by
  unfold State.tellTempo
  split
  · rfl
  · refine foldl_keeps (fun t : State => ({ t with notices := s.notices } : State)) _ (fun t p => ?_) allPorts s
    split
    · unfold State.raiseUp
      split <;> rfl
    · rfl

/-- TEMPO notices are told alike from a state with the same links, frame and notices to one with the same notices. -/
theorem tempoTold_congr {s' u' : State} {c : Clock} {cause : TempoCause} {source : TempoSource}
    (hl : ∀ q, s'.linkUp q = s.linkUp q) (hf : s'.frame = s.frame) (hn : s'.notices = s.notices)
    (hu : u'.notices = u.notices) (h : TempoTold s u k c cause source) : TempoTold s' u' k c cause source := by
  intro q
  have hq := h q
  simp only [State.np] at hq ⊢
  rw [hl, hf, hn, hu, hq]

theorem ClockMoves.told (h : ClockMoves s u k d f) (cause : TempoCause) (source : TempoSource) :
    ClockMoves s (u.tellTempo k cause source) k d f := by
  have hkeeps := tellTempo_rest u k cause source
  have hclock : ∀ j, (u.tellTempo k cause source).clock j = u.clock j := fun j =>
    (congrArg (fun t : State => t.clock j) hkeeps :)
  have hinst : ∀ j, (u.tellTempo k cause source).inst j = u.inst j := fun j =>
    (congrArg (fun t : State => t.inst j) hkeeps :)
  refine ⟨(hclock k).trans h.clock, fun j hj => (hclock j).trans (h.others j hj), ?_,
    fun slot => (hinst slot).trans (h.inst slot), h.link⟩
  exact (congrArg (fun t : State => ({ t with clocks := s.clocks, insts := s.insts, notices := s.notices } : State))
    hkeeps).trans h.rest

/-- Where no notice was raised before, those of clock `k` are told as from the first state. -/
theorem ClockMoves.tempoTold (h : ClockMoves s u k d f) (hn : u.notices = s.notices) (cause : TempoCause)
    (source : TempoSource) : TempoTold s (u.tellTempo k cause source) k d cause source :=
  tempoTold_congr (fun q => by simp [State.linkUp, State.io, h.ports]) h.frame.symm hn.symm rfl
    (tempoTold_tellTempo h.clock cause source)

/-- Where no notice was raised, the notices too are as they were. -/
theorem rest_of_notices {s u : State} (h : { u with clocks := s.clocks, insts := s.insts, notices := s.notices } = s)
    (hn : u.notices = s.notices) : { u with clocks := s.clocks, insts := s.insts } = s :=
  (congrArg (fun t : State => ({ t with notices := u.notices } : State)) h).trans (by rw [hn])

/-! ## The delivery of a beat event in two parts (log entry 72) -/

/-- The pending updates that a beat event, a bar event, both or neither of clock `k` brings into effect. -/
def beatUpdates (s : State) (k : Nat) (beat bar : Bool) : State :=
  (s.linkedSlots k).foldl (fun s n => s.applyUpdates n
    ((if beat then [Cond.beat] else []) ++ if bar then [Cond.bar] else [])) s

theorem deliver_eq (s : State) (k : Nat) (beat bar : Bool) :
    s.deliver k beat bar = (beatUpdates s k beat bar).applyArmed k beat bar := rfl

@[simp] theorem notices_beatUpdates (s : State) (k : Nat) (beat bar : Bool) :
    (beatUpdates s k beat bar).notices = s.notices := by
  simp [beatUpdates]

/-- What the updates after a move of a clock leave: the records reached at its FPB, and the rest as the move left it. -/
theorem ClockMoves.updates (h : ClockMoves s u k d f) (beat bar : Bool) :
    (beatUpdates u k beat bar).clock k = some d ∧ OtherClocks s (beatUpdates u k beat bar) k ∧
    { beatUpdates u k beat bar with clocks := s.clocks, insts := s.insts, notices := s.notices } = s ∧
    BeatReached s (beatUpdates u k beat bar) k d.fpb beat bar f := by
  have hclock : ∀ j, (beatUpdates u k beat bar).clock j = u.clock j := fun j => by simp [beatUpdates, State.clock]
  refine ⟨(hclock k).trans h.clock, fun j hj => (hclock j).trans (h.others j hj), ?_, fun slot => ?_⟩
  · exact (congrArg (fun t : State => ({ t with notices := s.notices } : State))
      (applyUpdates_slots_rest _ _ u s.insts s.clocks)).trans h.rest
  · have hreached := beatReached_updates h.clock beat bar slot
    rw [h.inst, h.rate] at hreached
    rw [beatUpdates, hreached]
    cases s.inst slot with
    | none => rfl
    | some i => by_cases hl : i.link = some k <;> simp [hl, h.link]

/-- Without an event no record is reached. -/
theorem applyArmed_none (s : State) (k : Nat) : s.applyArmed k false false = s := by
  have hreach : ∀ (t : State) p, reachRecord k false false t p = t := fun t p => by
    rcases reachRecord_cases k false false p t with ⟨r, hr, _⟩ | ⟨_, he⟩
    · rcases hr with ⟨_, _, _, ⟨_, hb⟩ | ⟨_, hb⟩⟩ <;> exact nomatch hb
    · exact he
  rw [applyArmed_eq, hreach, hreach, hreach]

end

end Sys2Proof.Signal
end

section
/-! TEMPO_SET, METER and taps (R90, R94 to R101, R104), and the statement on them (O32). -/
namespace Sys2Proof.Signal
open Sys2Proof.Machine

/-! ## Tempo and frames per beat (R90, R100) -/

theorem nearest_tempoOf (r : Rate) {series : List Nat} (h : 0 < series.sum) :
    Nearest (tempoOf r series) (r.pick 288000000 576000000 * series.length) series.sum := by
  have hn : r.hz * 6000 = r.pick 288000000 576000000 := by cases r <;> rfl
  rw [← hn]
  exact nearest_roundDiv _ h

theorem nearest_fpbOf (r : Rate) {tempo : Nat} (h : 0 < tempo) :
    Nearest (fpbOf r tempo) (r.pick 48000 96000 * 1536000) tempo := by
  have hn : r.hz * 6000 * 256 = r.pick 48000 96000 * 1536000 := by cases r <;> rfl
  rw [← hn]
  exact nearest_roundDiv _ h

theorem clampNat_eq {lo hi : Nat} (h : lo ≤ hi) (x : Nat) : clampNat lo hi x = max lo (min hi x) := by
  unfold clampNat
  split
  · omega
  · split <;> omega

/-! ## Clocks and the requests on them (R92) -/

theorem exists_clock (s : State) {k : Nat} (h : k < 4) : ∃ c, s.clock k = some c :=
  ⟨_, Vector.getElem?_eq_getElem h⟩

theorem setClock_same {s : State} {k : Nat} {c : Clock} (h : s.clock k = some c) : s.setClock k c = s := by
  have e : s.clocks.setIfInBounds k c = s.clocks := by
    apply Vector.ext
    intro j hj
    by_cases x : k = j
    · subst x
      have hget : s.clocks[k] = c := Option.some.inj ((Vector.getElem?_eq_getElem hj).symm.trans h)
      simp [hget]
    · simp [x]
  simp [State.setClock, e]

section
variable {s : State} {h : Hdr} {p : Port} {k : Nat} {c : Clock} {code : Byte} {act : State → State × Ans}

theorem asClockUser_open (hc : s.clock k = some c) (ho : c.owner = none ∨ c.owner = some p) (act : Clock → State × Ans) :
    s.asClockUser p k act = act c := by
  have hfree : State.lockedFor p c = false := decide_eq_false fun ⟨hn, hp⟩ => ho.elim hn hp
  simp [State.asClockUser, hc, hfree]

theorem asClockUser_locked (hc : s.clock k = some c) {q : Port} (ho : c.owner = some q) (hq : q ≠ p)
    (act : Clock → State × Ans) : s.asClockUser p k act = s.clockRefuse k .locked := by
  have hlocked : State.lockedFor p c = true := decide_eq_true (by simp [ho, hq])
  simp [State.asClockUser, hc, hlocked]

theorem clockAns_eq (hc : s.clock k = some c) (status : Status) (reason : Option Reason) (names : List ClampName) :
    s.clockAns k status reason names =
      (s, { status := status, reason := reason, body := .clock (s.clockReport k c) names }) := by
  simp [State.clockAns, hc]

/-- A request on a clock that answers its report and does nothing else. -/
theorem onlyAnswers_clock {i : Instr} {status : Status} {reason : Option Reason} {names : List ClampName}
    (he : exec i s = .next (s.request code h act)) (ht : s.takes h code = true) (hc : s.clock k = some c)
    (ha : act (s.dequeue h.port) = (s.dequeue h.port).clockAns k status reason names) :
    OnlyAnswers i h code status reason (.clock (s.clockReport k c) names) s := by
  rw [clockAns_eq (s := s.dequeue h.port) hc] at ha
  obtain ⟨hun, hans⟩ := request_unchanged (act := act) ht (by rw [ha])
  rw [ha] at hans
  exact ⟨_, he, hun, hans⟩

/-- A request on a clock that another port owns (R92). -/
theorem onlyAnswers_locked {i : Instr} {use : State → Clock → State × Ans} {q : Port}
    (he : exec i s = .next (s.request code h fun s => s.asClockUser h.port k (use s))) (ht : s.takes h code = true)
    (hc : s.clock k = some c) (ho : c.owner = some q) (hq : q ≠ h.port) :
    OnlyAnswers i h code .refused (some .locked) (.clock (s.clockReport k c) []) s :=
  onlyAnswers_clock he ht hc (asClockUser_locked (s := s.dequeue h.port) hc ho hq _)

end

/-! ## TEMPO_SET (R94) -/

/-- A new tempo: the clock moved, the linked effects retargeted, and the TEMPO notices told. -/
theorem tempoSet_moves {s : State} {k : Nat} {c : Clock} (hc : s.clock k = some c) (tempo : Nat) (source : TempoSource) :
    ClockMoves s (((s.setClock k (State.withTempo s.rate c tempo)).retargetClock k).tellTempo k .tempo source) k
        (State.withTempo s.rate c tempo) (Inst.retarget s.rate (fpbOf s.rate tempo)) ∧
      TempoTold s (((s.setClock k (State.withTempo s.rate c tempo)).retargetClock k).tellTempo k .tempo source) k
        (State.withTempo s.rate c tempo) .tempo source := by
  have hmoved := (clockMoves_setClock (s := s) (clock_lt hc) (State.withTempo s.rate c tempo)).retarget
  exact ⟨hmoved.told .tempo source, hmoved.tempoTold (by simp) .tempo source⟩

/-! ## Taps (R98 to R101) -/

/-- In a frame that carries a beat event already a tap gives no other (R101). -/
theorem restartBeat_carried {c : Clock} (h : c.beatNow = true) :
    State.restartBeat c = ({ c with phase := 0 }, false, false) := if_pos h

/-- Elsewhere it gives one, of the beat that stands or the next by the half of the phase (R101). -/
theorem restartBeat_given {c : Clock} (h : c.beatNow = false) {b : Nat}
    (hb : b = if 2 * c.phase < c.fpb then c.beat else if c.beat < c.beats then c.beat + 1 else 1) :
    State.restartBeat c =
      ({ c with phase := 0, beat := b, beatNow := true, barNow := decide (b = 1) }, true, decide (b = 1)) := by
  have hbeat : (if c.fpb ≤ 2 * c.phase then (if c.beats ≤ c.beat then 1 else c.beat + 1) else c.beat) = b := by
    rw [hb]
    simp only [← Nat.not_lt, ite_not]
  rw [← hbeat]
  exact if_neg (by simp [h])

theorem restarts_restartBeat (c : Clock) : c.Restarts (State.restartBeat c).1 := by
  cases h : c.beatNow with
  | true =>
    rw [restartBeat_carried h]
    exact ⟨rfl, fun _ => ⟨rfl, rfl, rfl⟩, fun h' => (nomatch h.symm.trans h')⟩
  | false =>
    rw [restartBeat_given h rfl]
    exact ⟨rfl, fun h' => (nomatch h.symm.trans h'), fun _ => ⟨rfl, rfl, decide_eq_true_iff⟩⟩

theorem restartBeat_events (c : Clock) :
    (State.restartBeat c).2 = (!c.beatNow, !c.beatNow && (State.restartBeat c).1.barNow) := by
  cases h : c.beatNow with
  | true => rw [restartBeat_carried h]; rfl
  | false => rw [restartBeat_given h rfl]; rfl

theorem restartBeat_rest (c : Clock) :
    { (State.restartBeat c).1 with phase := c.phase, beat := c.beat, beatNow := c.beatNow, barNow := c.barNow } = c := by
  cases h : c.beatNow with
  | true => rw [restartBeat_carried h, ← h]
  | false => rw [restartBeat_given h rfl, ← h]

theorem tapBand_of_tapIs {s : State} {c : Clock} {what : TapOutcome} (h : TapIs s c what) : s.tapBand c = what := by
  have hpick : s.rate.pick 9600 19200 ≤ s.rate.pick 72000 144000 := by cases s.rate <;> decide
  unfold State.tapBand
  cases what with
  | ignored =>
    obtain ⟨f, hf, hlow⟩ := h
    simp [hf, hlow]
  | restarted =>
    rcases h with hnone | ⟨f, hf, hhigh⟩
    · simp [hnone]
    · simp [hf, hhigh, show ¬ s.since f < s.rate.pick 9600 19200 by omega]
  | appended =>
    obtain ⟨f, hf, hlow, hhigh⟩ := h
    simp [hf, Nat.not_lt.mpr hlow, Nat.not_lt.mpr hhigh]

section
variable {s : State} {k : Nat} {c : Clock}

theorem tapClock_ignored (hc : s.clock k = some c) (hb : s.tapBand c = .ignored) (source : TempoSource) :
    s.tapClock k source = (s, .ignored) := by
  unfold State.tapClock
  simp only [hc, hb]

/-- The clock after a tap that starts a series. -/
def restartedClock (s : State) (c : Clock) : Clock :=
  { (State.restartBeat c).1 with series := [], lastTap := some s.frame }

theorem tapClock_restarted (hc : s.clock k = some c) (hb : s.tapBand c = .restarted) (source : TempoSource) :
    s.tapClock k source =
      ((s.moveClock k c (restartedClock s c)).deliver k (!c.beatNow) (!c.beatNow && (restartedClock s c).barNow),
        .restarted) := by
  unfold State.tapClock
  simp only [hc, hb, restartBeat_events]
  rfl

/-- The clock after a tap that adds an interval to the series, the last tap in the frame `f`. -/
def appendedClock (s : State) (c : Clock) (f : FrameNo) : Clock :=
  { (State.restartBeat c).1 with
    series := State.addInterval c.series (s.since f), lastTap := some s.frame,
    tempo := tempoOf s.rate (State.addInterval c.series (s.since f)),
    fpb := fpbOf s.rate (tempoOf s.rate (State.addInterval c.series (s.since f))) }

/-- The state in which the events of such a tap are delivered (log entry 57). -/
def appendedState (s : State) (k : Nat) (c : Clock) (f : FrameNo) (source : TempoSource) : State :=
  if (appendedClock s c f).fpb = c.fpb then s.moveClock k c (appendedClock s c f)
  else ((s.moveClock k c (appendedClock s c f)).retargetClock k).tellTempo k .tap source

theorem tapClock_appended (hc : s.clock k = some c) (hb : s.tapBand c = .appended) {f : FrameNo}
    (hf : c.lastTap = some f) (source : TempoSource) :
    s.tapClock k source =
      ((appendedState s k c f source).deliver k (!c.beatNow) (!c.beatNow && (appendedClock s c f).barNow),
        .appended) := by
  unfold State.tapClock
  simp only [hc, hb, hf, restartBeat_events]
  rfl

/-- The events of a tap that restarts the beat reach the records of its clock after the updates. -/
theorem tapReaches_deliver {m : State} {d : Clock} {f : Inst → Inst} (h : ClockMoves s m k d f) (hr : c.Restarts d)
    {what : TapOutcome} (hw : what ≠ .ignored) :
    TapReaches (beatUpdates m k (!c.beatNow) (!c.beatNow && d.barNow))
      (m.deliver k (!c.beatNow) (!c.beatNow && d.barNow)) k c what := by
  obtain ⟨hclock, _⟩ := h.updates (!c.beatNow) (!c.beatNow && d.barNow)
  obtain ⟨_, _, hgiven⟩ := hr
  refine ⟨fun hor => ?_, fun _ hn e he => ?_⟩
  · have hcarried : c.beatNow = true := hor.resolve_left hw
    rw [deliver_eq, hcarried]
    exact applyArmed_none _ k
  · obtain rfl : d = e := Option.some.inj (hclock.symm.trans he)
    have hbar : d.barNow = decide (d.beat = 1) := Bool.eq_iff_iff.mpr ((hgiven hn).2.2.trans decide_eq_true_iff.symm)
    rw [← hbar, deliver_eq, hn]
    exact recordsReached_applyArmed ..

/-- What a tap does, with the state between the updates and the records. -/
def Taps (s t : State) (k : Nat) (c : Clock) (source : TempoSource) (what : TapOutcome) : Prop :=
  ∃ u, OtherClocks s u k ∧ TapEffect s u k c source what ∧
    { u with clocks := s.clocks, insts := s.insts, notices := s.notices } = s ∧ TapReaches u t k c what

theorem taps_restarted (hc : s.clock k = some c) (hb : s.tapBand c = .restarted) (source : TempoSource) :
    Taps s (s.tapClock k source).1 k c source .restarted := by
  have hmoved := clockMoves_moveClock (s := s) (clock_lt hc) c (restartedClock s c)
  have hrestarts : c.Restarts (restartedClock s c) := restarts_restartBeat c
  obtain ⟨hclock, hothers, hrest, hreached⟩ := hmoved.updates (!c.beatNow) (!c.beatNow && (restartedClock s c).barNow)
  have hrestClock := congrArg (fun d : Clock => { d with series := c.series, lastTap := c.lastTap }) (restartBeat_rest c)
  have hfpb : (restartedClock s c).fpb = c.fpb := (congrArg Clock.fpb hrestClock :)
  rw [tapClock_restarted hc hb]
  exact ⟨_, hothers, ⟨_, hclock, hrestarts, rfl, rfl, hrestClock, hfpb ▸ hreached, by simp⟩, hrest,
    tapReaches_deliver hmoved hrestarts (by decide)⟩

/-- What the linked effects see of such a tap. -/
theorem clockMoves_appended (hc : s.clock k = some c) (f : FrameNo) (source : TempoSource) :
    ClockMoves s (appendedState s k c f source) k (appendedClock s c f) fun i =>
      if (appendedClock s c f).fpb = c.fpb then SeesMove c (appendedClock s c f) i
      else (SeesMove c (appendedClock s c f) i).retarget s.rate (appendedClock s c f).fpb := by
  have hmoved := clockMoves_moveClock (s := s) (clock_lt hc) c (appendedClock s c f)
  unfold appendedState
  by_cases hfpb : (appendedClock s c f).fpb = c.fpb
  · simp only [if_pos hfpb]
    exact hmoved
  · simp only [if_neg hfpb]
    exact hmoved.retarget.told .tap source

/-- Its notices are told where the frames per beat move. -/
theorem notices_appended (hc : s.clock k = some c) (f : FrameNo) (source : TempoSource) :
    ((appendedClock s c f).fpb = c.fpb → (appendedState s k c f source).notices = s.notices) ∧
    ((appendedClock s c f).fpb ≠ c.fpb →
      TempoTold s (appendedState s k c f source) k (appendedClock s c f) .tap source) := by
  have hmoved := clockMoves_moveClock (s := s) (clock_lt hc) c (appendedClock s c f)
  unfold appendedState
  refine ⟨fun hfpb => ?_, fun hfpb => ?_⟩
  · rw [if_pos hfpb]
    simp
  · rw [if_neg hfpb]
    exact hmoved.retarget.tempoTold (by simp) .tap source

theorem taps_appended (hc : s.clock k = some c) (hb : s.tapBand c = .appended) {f : FrameNo} (hf : c.lastTap = some f)
    (source : TempoSource) : Taps s (s.tapClock k source).1 k c source .appended := by
  have hmoved := clockMoves_appended hc f source
  have hrestarts : c.Restarts (appendedClock s c f) := restarts_restartBeat c
  obtain ⟨hclock, hothers, hrest, hreached⟩ := hmoved.updates (!c.beatNow) (!c.beatNow && (appendedClock s c f).barNow)
  obtain ⟨hquiet, htold⟩ := notices_appended hc f source
  have hseries : (appendedClock s c f).series =
      (if c.series.length < 4 then c.series else c.series.drop 1) ++ [s.since f] := by
    simp only [appendedClock, State.addInterval, ← Nat.not_lt, ite_not]
  have hrestClock := congrArg (fun d : Clock =>
    { d with series := c.series, lastTap := c.lastTap, tempo := c.tempo, fpb := c.fpb }) (restartBeat_rest c)
  rw [tapClock_appended hc hb hf]
  refine ⟨_, hothers, ⟨_, f, hclock, hrestarts, hf, rfl, hseries, rfl, rfl, hrestClock, hreached,
    fun hfpb => by rw [notices_beatUpdates, hquiet hfpb], fun hfpb => ?_⟩, hrest,
    tapReaches_deliver hmoved hrestarts (by decide)⟩
  exact tempoTold_congr (fun _ => rfl) rfl rfl (notices_beatUpdates ..) (htold hfpb)

theorem tapClock_taps {what : TapOutcome} (hc : s.clock k = some c) (h : TapIs s c what) (source : TempoSource) :
    (s.tapClock k source).2 = what ∧ Taps s (s.tapClock k source).1 k c source what := by
  have hb := tapBand_of_tapIs h
  cases what with
  | ignored =>
    rw [tapClock_ignored hc hb]
    exact ⟨rfl, s, fun _ _ => rfl, ⟨hc, rfl, rfl⟩, rfl, fun _ => rfl, fun hne => absurd rfl hne⟩
  | restarted => exact ⟨by rw [tapClock_restarted hc hb], taps_restarted hc hb source⟩
  | appended =>
    obtain ⟨f, hf, _⟩ := h
    exact ⟨by rw [tapClock_appended hc hb hf], taps_appended hc hb hf source⟩

/-- A tap does to a state without its request what it does to the state. -/
theorem tapEffect_dequeue {p : Port} {u : State} {source : TempoSource} {what : TapOutcome}
    (h : TapEffect (s.dequeue p) u k c source what) : TapEffect s u k c source what := by
  cases what with
  | ignored => exact h
  | restarted => exact h
  | appended =>
    obtain ⟨d, f, hclock, hrestarts, hf, hlast, hseries, htempo, hfpb, hrest, hreached, hquiet, htold⟩ := h
    exact ⟨d, f, hclock, hrestarts, hf, hlast, hseries, htempo, hfpb, hrest, hreached, hquiet,
      fun hne => tempoTold_congr (fun q => (linkUp_dequeue s p q).symm) rfl rfl rfl (htold hne)⟩

theorem exec_tapLineEdge (h : s.running = true) : exec .tapLineEdge s = .next s.tapEdge :=
  congrArg Host.Outcome.next (whileRunning_on h _)

/-- The TAP line is held by the one clock that says so. -/
theorem tapLineClock_eq (hc : s.clock k = some c) (hline : ∀ n e, s.clock n = some e → (e.tapLine = true ↔ n = k)) :
    s.tapLineClock = some k := by
  have hfirst : [0, 1, 2, 3].find? (fun n => decide (n = k)) = some k := by
    have hk := clock_lt hc
    interval_cases k <;> rfl
  refine (List.find?_congr fun n hn => ?_).trans hfirst
  obtain ⟨e, he⟩ := exists_clock s (k := n) (by simp at hn; omega)
  rw [he]
  exact Bool.eq_iff_iff.mpr ((hline n e he).trans decide_eq_true_iff.symm)

/-! ## The lapse of the last tap (R100) -/

theorem exec_lastTapLapse (h : s.running = true) (k : Nat) : exec (.lastTapLapse k) s = .next (s.lapseTap k) :=
  congrArg Host.Outcome.next (whileRunning_on h _)

theorem lapseTap_ran {f : FrameNo} (hc : s.clock k = some c) (hf : c.lastTap = some f)
    (h : s.rate.pick 72000 144000 + 1 < s.since f) : s.lapseTap k = s.setClock k { c with lastTap := none } := by
  simp [State.lapseTap, State.modClock, hc, hf, h]

theorem lapseTap_runs {f : FrameNo} (hc : s.clock k = some c) (hf : c.lastTap = some f)
    (h : s.since f ≤ s.rate.pick 72000 144000 + 1) : s.lapseTap k = s := by
  simp [State.lapseTap, State.modClock, hc, hf, Nat.not_lt.mpr h, setClock_same hc]

end

/-! ## The requests as taken -/

section
variable {s : State} {h : Hdr} {k : Nat} {c : Clock}

theorem tempoSet_reads (ht : s.takes h 0x32 = true) (hc : s.clock k = some c) :
    OnlyAnswers (.tempoSet h k none) h 0x32 .done none (.clock (s.clockReport k c) []) s :=
  onlyAnswers_clock rfl ht hc (if_pos (Nat.le_of_lt_succ (clock_lt hc)))

theorem tempoSet_stands (ht : s.takes h 0x32 = true) (hc : s.clock k = some c)
    (ho : c.owner = none ∨ c.owner = some h.port) {x : Nat} (hx : clampNat 4000 30000 x = c.tempo) :
    OnlyAnswers (.tempoSet h k (some x)) h 0x32 .done none (.clock (s.clockReport k c) []) s :=
  onlyAnswers_clock rfl ht hc ((asClockUser_open (s := s.dequeue h.port) hc ho _).trans (if_pos hx))

/-- A taken request whose action leaves `w`, which touches no port, and answers `a`. -/
theorem request_answers {i : Instr} {code : Byte} {act : State → State × Ans} {w : State} {a : Ans}
    (he : exec i s = .next (s.request code h act)) (ht : s.takes h code = true) (ha : act (s.dequeue h.port) = (w, a))
    (hp : w.ports = (s.dequeue h.port).ports) :
    exec i s = .next (w.answer h code a) ∧ PortsKept h s (w.answer h code a) ∧
    (w.answer h code a).Answered h code a.status a.reason a.body := by
  obtain ⟨hans, hports, _⟩ := request_spec (act := act) ht (by rw [ha, hp])
  rw [request_taken ht, ha] at he hans hports
  exact ⟨he, hports, hans⟩

/-- The clock as METER leaves it (R95). -/
def meterClock (c : Clock) (beats : Nat) : Clock :=
  { c with beats := clampNat 1 16 beats, beat := 1, phase := 0, beatNow := true, barNow := true, beatOwed := false,
           barOwed := false }

/-- The state in which the events of a METER reach the records (log entry 72). -/
def meterUpdated (s : State) (k : Nat) (c : Clock) (beats : Nat) : State :=
  beatUpdates (s.moveClock k c (meterClock c beats)) k (!c.beatNow || c.beatOwed) (!c.barNow || c.barOwed)

/-- The state once they have reached the records (R97, R147). -/
def meterReached (s : State) (k : Nat) (c : Clock) (beats : Nat) : State :=
  (meterUpdated s k c beats).applyArmed k (!c.beatNow || c.beatOwed) (!c.barNow || c.barOwed)

theorem meterRequest_open (hc : s.clock k = some c) {p : Port} (ho : c.owner = none ∨ c.owner = some p) (beats : Nat) :
    s.meterRequest p k beats = ((meterReached s k c beats).tellTempo k .meter (.port p)).clockDone k
      (if clampNat 1 16 beats = beats then [] else [.beats]) :=
  asClockUser_open hc ho _

/-- What a METER does before its events reach the records. -/
theorem meterUpdated_spec (hc : s.clock k = some c) (beats : Nat) :
    (meterUpdated s k c beats).clock k = some (meterClock c beats) ∧ OtherClocks s (meterUpdated s k c beats) k ∧
    { meterUpdated s k c beats with clocks := s.clocks, insts := s.insts } = s ∧
    BeatReached s (meterUpdated s k c beats) k c.fpb (!c.beatNow || c.beatOwed) (!c.barNow || c.barOwed)
      (SeesMove c (meterClock c beats)) := by
  have hmoved := clockMoves_moveClock (s := s) (clock_lt hc) c (meterClock c beats)
  obtain ⟨hclock, hothers, hrest, hreached⟩ := hmoved.updates (!c.beatNow || c.beatOwed) (!c.barNow || c.barOwed)
  exact ⟨hclock, hothers, rest_of_notices hrest ((notices_beatUpdates ..).trans (by simp)), hreached⟩

theorem tapRequest_open (hc : s.clock k = some c) {p : Port} (ho : c.owner = none ∨ c.owner = some p) {d : Clock}
    (hd : (s.tapClock k (.port p)).1.clock k = some d) :
    s.tapRequest p k = ((s.tapClock k (.port p)).1,
      ansDone (.tapped (s.tapClock k (.port p)).2 ((s.tapClock k (.port p)).1.clockReport k d))) := by
  unfold State.tapRequest
  rw [asClockUser_open hc ho]
  simp only [hd]

end

/-! ## The statement -/

/-- Settles O32: each request is one move of its clock, seen by the linked effects and told of, and a tap by its band. -/
theorem tempoMeterAndTapsMoveAClock : Obligations.TempoMeterAndTapsMoveAClock := by
  refine ⟨fun r series tempo => ⟨nearest_tempoOf r, nearest_fpbOf r⟩,
    fun s h k c ht hc => ⟨tempoSet_reads ht hc, fun x tempo htempo => ⟨fun ho => ⟨fun hx => ?_, fun hx => ?_⟩,
      fun q ho hq => onlyAnswers_locked rfl ht hc ho hq⟩⟩,
    fun s h k beats c ht hc => ⟨fun ho => ?_, fun q ho hq => onlyAnswers_locked rfl ht hc ho hq⟩,
    fun s k c hc => ⟨fun h what ht hwhat => ⟨fun ho => ?_, fun q ho hq => onlyAnswers_locked rfl ht hc ho hq⟩,
      fun what hr hwhat hline => ?_, fun f hr hf => ⟨fun hran => ?_, fun hruns => ?_⟩⟩⟩
  · rw [← clampNat_eq (by decide)] at htempo
    exact tempoSet_stands ht hc ho (htempo.symm.trans hx)
  · rw [← clampNat_eq (by decide)] at htempo
    obtain ⟨hmoved, htold⟩ := tempoSet_moves (s := s.dequeue h.port) hc tempo (.port h.port)
    have hact : (s.dequeue h.port).tempoSetRequest h.port k (some x) = _ :=
      (asClockUser_open (s := s.dequeue h.port) hc ho _).trans (if_neg (htempo ▸ hx))
    rw [← htempo] at hact
    obtain ⟨hexec, hports, hans⟩ := request_answers (i := .tempoSet h k (some x)) rfl ht
      (hact.trans (clockAns_eq hmoved.clock _ _ _)) hmoved.ports
    have hpos : 0 < tempo := by rw [htempo, clampNat_eq (by decide)]; omega
    obtain ⟨hlow, hhigh⟩ := nearest_fpbOf s.rate hpos
    exact ⟨_, _, _, hexec, hports, hmoved.others, hmoved.clock,
      congrArg (fun t : State => ({ t with ports := s.ports } : State)) hmoved.rest, rfl, hlow, hhigh, hmoved.inst,
      tempoTold_congr (fun q => (linkUp_dequeue s h.port q).symm) rfl rfl rfl htold, rfl, hans⟩
  · obtain ⟨hclock, hothers, hrest, hreached⟩ := meterUpdated_spec (s := s.dequeue h.port) hc beats
    obtain ⟨d, hd⟩ := exists_clock (meterReached (s.dequeue h.port) k c beats) (clock_lt hc)
    have hports : (meterUpdated (s.dequeue h.port) k c beats).ports = (s.dequeue h.port).ports :=
      (congrArg State.ports hrest :)
    have hact := (meterRequest_open (s := s.dequeue h.port) hc ho beats).trans
      (clockAns_eq (c := d) (by simpa [State.clock] using hd) _ none _)
    obtain ⟨hexec, hkept, hans⟩ := request_answers (i := .meter h k beats) rfl ht hact
      (by simpa [meterReached] using hports)
    refine ⟨_, meterUpdated (s.dequeue h.port) k c beats, meterReached (s.dequeue h.port) k c beats, d, _, _, hexec,
      hkept, (portsKept_dequeue s h).trans (.of_ports hports), hothers,
      congrArg (fun t : State => ({ t with ports := s.ports } : State)) hrest, hclock, ?_, hreached,
      recordsReached_applyArmed .., hd, tempoTold_tellTempo hd .meter (.port h.port), ?_, rfl, hans⟩
    · rw [← clampNat_eq (by decide)]
      rfl
    · exact congrArg (fun t : State => ({ t with ports := (meterReached (s.dequeue h.port) k c beats).ports } : State))
        (tellTempo_rest (meterReached (s.dequeue h.port) k c beats) k .meter (.port h.port))
  · obtain ⟨rfl, u, hothers, heffect, hrest, hreaches⟩ := tapClock_taps (s := s.dequeue h.port) hc hwhat (.port h.port)
    obtain ⟨d, hd⟩ := exists_clock ((s.dequeue h.port).tapClock k (.port h.port)).1 (clock_lt hc)
    obtain ⟨hexec, hkept, hans⟩ := request_answers (i := .tap h k) rfl ht
      (tapRequest_open (s := s.dequeue h.port) hc ho hd) (by simp)
    have hports : u.ports = (s.dequeue h.port).ports := (congrArg State.ports hrest :)
    exact ⟨_, u, _, d, hexec, hkept, (portsKept_dequeue s h).trans (.of_ports hports), hothers,
      tapEffect_dequeue heffect, congrArg (fun t : State => ({ t with ports := s.ports } : State)) hrest, hreaches, rfl,
      hd, hans⟩
  · obtain ⟨_, u, hothers, heffect, hrest, hreaches⟩ := tapClock_taps hc hwhat .tapLine
    refine ⟨_, u, ?_, hothers, heffect, hrest, hreaches⟩
    rw [exec_tapLineEdge hr, State.tapEdge, tapLineClock_eq hc hline]
  · refine ⟨s.setClock k { c with lastTap := none }, ?_, fun j hj => ?_, rfl, ?_⟩
    · rw [exec_lastTapLapse hr, lapseTap_ran hc hf hran]
    · rw [clock_setClock s k j _ (clock_lt hc), if_neg hj]
    · rw [clock_setClock s k k _ (clock_lt hc), if_pos rfl]
  · rw [exec_lastTapLapse hr, lapseTap_runs hc hf hruns]

end Sys2Proof.Signal
end
